-- ==== Sys2Proof/Word.lean ====
section
/-! DEFINITION. The fixed-width words of CORE (00_scope.md R7, R11, R12): the widths the spec gives its
packets, bitmaps, cursors, stimulus words and event words, the two ports, and `popcount`. A line level
(R10) is a `Bool`: `true` is 1 (high), `false` is 0 (low). Every quantity is unsigned (R11). -/

namespace Sys2Proof

/-- A 24-bit packet, and the accumulator that collects it (`PKT_W = 24`, R7, R50). -/
abbrev Packet := BitVec 24

/-- A 14-bit Logical Button Bitmap (`NBTN = 14`, R7, R55). -/
abbrev Bitmap := BitVec 14

/-- The 5-bit bit-count cursor (R22). -/
abbrev Cursor := BitVec 5

/-- An 8-bit stimulus word `S[7:0]` (R60). -/
abbrev StimWord := BitVec 8

/-- A 10-bit event word `E[9:0]` (R57). -/
abbrev EventWord := BitVec 10

/-- The packet width `PKT_W` (R7). -/
abbrev packetWidth : Nat := 24

/-- The two controller ports (`NPORTS = 2`, R7, R15). -/
inductive Port where
  | js1
  | js2
  deriving DecidableEq, Repr

/-- `popcount(v)`: how many bits of `v` are set (R12). -/
def popcount {w : Nat} (v : BitVec w) : Nat :=
  (List.range w).countP fun i => v.getLsbD i

end Sys2Proof
end

