-- ==== Sys2Proof/Config.lean ====
section
/-! DEFINITION. The configuration of CORE (00_scope.md R8, 10_state.md R29): its parameters as one
structure, the names they use (buttons, named keys, symbols, events), and the model's free values as
constants without a body. The values the machine runs with stand in Sys2Proof/Machine/Configuration.lean. -/

namespace Sys2Proof

/-- Which clock transition samples a bit: the parameter `EDGE` (R8, R71). -/
inductive Edge where
  | falling
  | rising
  | both
  deriving DecidableEq, Repr

/-- The 14 logical buttons in the order of R7 and R55. -/
inductive Button where
  | left | right | down | up | r1 | l1 | red
  | yellow | green | l2 | blue | r2 | start | select
  deriving DecidableEq, Repr

/-- The button index 0..13, which is also its bitmap bit (R15, R55). -/
def Button.index : Button → Nat
  | .left => 0
  | .right => 1
  | .down => 2
  | .up => 3
  | .r1 => 4
  | .l1 => 5
  | .red => 6
  | .yellow => 7
  | .green => 8
  | .l2 => 9
  | .blue => 10
  | .r2 => 11
  | .start => 12
  | .select => 13

/-- The buttons in ascending index. -/
def Button.all : List Button :=
  [.left, .right, .down, .up, .r1, .l1, .red, .yellow, .green, .l2, .blue, .r2, .start, .select]

/-- The nine named keys, in the order R56 numbers them (`returnKey` is its RETURN, a word Lean keeps). -/
inductive NamedKey where
  | leftArrow | rightArrow | upArrow | downArrow | returnKey | escape
  | rightShift | rightCtrl | rightAlt
  deriving DecidableEq, Repr, Inhabited

/-- The set `PRINTABLE` = ASCII 0x20..0x7E (R8, R56). -/
def isPrintable (c : BitVec 8) : Bool :=
  decide (0x20 ≤ c.toNat ∧ c.toNat ≤ 0x7E)

/-- A symbol: a printable character or a named key (R56). A `char` carries the proof that its code is
printable, so that a symbol outside R56 cannot be built. -/
inductive Symbol where
  | char (code : BitVec 8) (printable : isPrintable code = true)
  | named (key : NamedKey)
  deriving DecidableEq, Repr, Inhabited

/-- The two event kinds (R17, R57). -/
inductive Direction where
  | pressed
  | released
  deriving DecidableEq, Repr

/-- An event `(sym, dir)`; it names no port (R57). -/
structure Event where
  sym : Symbol
  dir : Direction
  deriving DecidableEq, Repr

/-- What a build may have put into a keymap entry, before the check of R110: a symbol of R56, a character
code outside `PRINTABLE`, or a number that names no key. -/
inductive KeymapValue where
  | symbol (s : Symbol)
  | unprintable (code : BitVec 8)
  | unknownKey (index : Nat)
  deriving DecidableEq, Repr

/-- One entry of a keymap given as a list (R110, R122): the identity it is for, and its value. An identity
is a number, so that a list can also hold an entry for something that is no button. -/
structure KeymapEntry where
  button : Nat
  value : KeymapValue
  deriving DecidableEq, Repr

/-- The configuration tuple of R29. It is fixed before reset and no stimulus writes it.
`FRAME_MASK` and `FRAME_VALUE` are 24-bit values by their type, and `DATA_POS` has one entry per button by
its type (R9). `eventOrder` is `EVENT_ORDER` (R103) as a choice of positions: see
Sys2Proof/Machine/Keymap.lean, `permute`. -/
structure Config where
  edge : Edge
  frameMask : Packet
  frameValue : Packet
  dataPos : Button → Nat
  keymap1 : List KeymapEntry
  keymap2 : List KeymapEntry
  eventOrder : Nat → Port → Bitmap → Bitmap → Nat → Nat

/-- Free value: the entries of `KEYMAP1` that no scenario fixes (R106; notes/assumptions/5.md). -/
opaque Config.openKey1 : Button → Symbol

/-- Free value: the entries of `KEYMAP2` that no scenario fixes (R106; notes/assumptions/5.md). -/
opaque Config.openKey2 : Button → Symbol

/-- Free value: the positions that fix the order of one packet's events (R103; notes/assumptions/6.md).
Its arguments are how many events `OUT` holds, the port, the new and the previous bitmap, and which event
of the packet is being placed. -/
opaque Config.eventPick : Nat → Port → Bitmap → Bitmap → Nat → Nat

end Sys2Proof
end

