-- ==== Sys2Proof/Machine/Bits.lean ====
section
/-! DEFINITION. Building a word bit by bit: the one bit-field helper of the model. -/

namespace Sys2Proof.Machine

/-- The `n`-bit word whose bit `i` is `f i`: the bitwise sums of 41_frame_decoder.md R91 and R93. -/
def gather : (n : Nat) → (Nat → Bool) → BitVec n
  | 0, _ => 0#0
  | n + 1, f => (gather n f).cons (f n)

end Sys2Proof.Machine
end

