-- ==== Sys2Proof/Machine/FrameDecoder.lean ====
section
/-! DEFINITION. The Frame Validator and Bit Mapper, pure functions on one packet (41_frame_decoder.md R90 to
R93). -/

namespace Sys2Proof.Machine

/-- `valid(P)`: every framing bit equals its constant (R90). -/
def validPacket (cfg : Config) (packet : Packet) : Bool :=
  packet &&& cfg.frameMask == cfg.frameValue

/-- The button of an index (R15). -/
def buttonAt (i : Nat) : Option Button := Button.all[i]?

/-- `map(P)`: bit `i` of the bitmap is the packet bit at `DATA_POS[i]`, not inverted (R91, R53). -/
def mapPacket (cfg : Config) (packet : Packet) : Bitmap :=
  gather 14 fun i =>
    match buttonAt i with
    | some b => packet.getLsbD (cfg.dataPos b)
    | none => false

/-- The outcome of the framing check and the mapper (R92). -/
inductive FrameResult where
  /-- `NEW(map(P))`. -/
  | new (bitmap : Bitmap)
  /-- `NO_CHANGE`: the framing does not match; nothing is reported. -/
  | noChange
  deriving DecidableEq, Repr

/-- `decode(P)` (R92). -/
def decodePacket (cfg : Config) (packet : Packet) : FrameResult :=
  if validPacket cfg packet then .new (mapPacket cfg packet) else .noChange

/-- `enc(B)`: the packet that carries a bitmap (R93). No stimulus uses it. -/
def encPacket (cfg : Config) (bitmap : Bitmap) : Packet :=
  cfg.frameValue |||
    gather 24 fun n => Button.all.any fun b => cfg.dataPos b == n && bitmap.getLsbD b.index

end Sys2Proof.Machine
end

