-- ==== Sys2Proof/Syntax.lean ====
section
/-! DEFINITION. The stimuli of CORE as syntax: one constructor per row of spec/opcode_table.json
(30_encoding.md R60 to R63). CORE is no processor; what the table lists are the operations the
environment triggers (00_scope.md R2). -/

namespace Sys2Proof

/-- A stimulus (R60). -/
inductive Instr where
  /-- `SIG p, c, d`: port `p`'s clock line now reads `c` and its data line reads `d` (R61). -/
  | sig (p : Port) (c d : Bool)
  /-- `POLL p`: one consumer step for port `p` (R62). -/
  | poll (p : Port)
  /-- `RESET` (R63). -/
  | reset
  deriving DecidableEq, Repr

end Sys2Proof
end

