-- ==== Sys2Proof/WellFormed.lean ====
section
/-! DEFINITION. Well-formedness: of a configuration (00_scope.md R9), each failure with a name of its own,
and of a stimulus (30_encoding.md R60: its port, clock and data fields are single bits, so every term of
`Instr` is one of the eleven encodings). The keymap check of 42_keymap_resolver.md R110 is the machine's own
and stands in Sys2Proof/Machine/InitCheck.lean. -/

namespace Sys2Proof

/-- Why a configuration is not well-formed: the conditions of R9 that a `Config` can fail. (That the mask and
value have 24 bits holds by type.) -/
inductive ConfigDefect where
  /-- `FRAME_VALUE & ~FRAME_MASK ≠ 0`. -/
  | frameValueOutsideMask
  /-- An entry of `DATA_POS` is not in 0..23. -/
  | dataPosOutOfRange
  /-- Two entries of `DATA_POS` are equal. -/
  | dataPosRepeated
  /-- An entry of `DATA_POS` is a bit set in `FRAME_MASK`. -/
  | dataPosOnFramingBit
  /-- `popcount(FRAME_MASK) + 14 ≠ 24`. -/
  | packetNotCovered
  deriving DecidableEq, Repr

/-- The first condition of R9 that the configuration fails, if it fails one. -/
def Config.defect? (cfg : Config) : Option ConfigDefect :=
  if cfg.frameValue &&& ~~~cfg.frameMask ≠ 0#24 then some .frameValueOutsideMask
  else if Button.all.any fun b => decide (24 ≤ cfg.dataPos b) then some .dataPosOutOfRange
  else if ¬ (Button.all.map cfg.dataPos).Nodup then some .dataPosRepeated
  else if Button.all.any fun b => cfg.frameMask.getLsbD (cfg.dataPos b) then some .dataPosOnFramingBit
  else if popcount cfg.frameMask + 14 ≠ 24 then some .packetNotCovered
  else none

/-- A configuration is well-formed when no condition of R9 fails. -/
abbrev Config.WellFormed (cfg : Config) : Prop := cfg.defect? = none

/-- Every stimulus is well-formed: the port, clock and data fields of R60 are single bits, and so are the
operands of `Instr`, so no term falls outside the eleven encodings of R61 to R63. -/
def Instr.wellFormed (_ : Instr) : Bool := true

end Sys2Proof
end

