-- ==== Sys2Proof/Decode.lean ====
section
/-! DEFINITION. The stimulus decoder, total on the 256 words and rejecting by name, and the encoder
(30_encoding.md R60 to R64). -/

namespace Sys2Proof

/-- Which clause of R64 makes a word reserved. -/
inductive Reserved where
  /-- `S[7:6] = 11`. -/
  | classReserved
  /-- `S[5:3] ≠ 000`. -/
  | zeroFieldSet
  /-- A POLL word with `S[1:0] ≠ 00`. -/
  | pollOperandSet
  /-- A RESET word with `S[2:0] ≠ 000`. -/
  | resetOperandSet
  deriving DecidableEq, Repr

/-- What a word spells: a stimulus, or nothing (R64). -/
inductive Decoded where
  | stimulus (i : Instr)
  | reserved (why : Reserved)
  deriving DecidableEq, Repr

/-- The class field `S[7:6]` (R60). -/
def clsField (w : StimWord) : BitVec 2 := w.extractLsb' 6 2

/-- The field `S[5:3]`, which must be 000 (R60). -/
def zField (w : StimWord) : BitVec 3 := w.extractLsb' 3 3

/-- The port field `S[2]` (R60): 0 is JS1, 1 is JS2. -/
def portField (w : StimWord) : Port := if w.getLsbD 2 then .js2 else .js1

/-- The clock field `S[1]` (R60). -/
def clockField (w : StimWord) : Bool := w.getLsbD 1

/-- The data field `S[0]` (R60). -/
def dataField (w : StimWord) : Bool := w.getLsbD 0

/-- The stimulus a word spells (R60 to R64). A word that falls under several clauses of R64 is named by the
first of them. -/
def decode (w : StimWord) : Decoded :=
  if clsField w = 3#2 then .reserved .classReserved
  else if zField w ≠ 0#3 then .reserved .zeroFieldSet
  else if clsField w = 0#2 then .stimulus (.sig (portField w) (clockField w) (dataField w))
  else if clsField w = 1#2 then
    if w.extractLsb' 0 2 = 0#2 then .stimulus (.poll (portField w)) else .reserved .pollOperandSet
  else if w.extractLsb' 0 3 = 0#3 then .stimulus .reset else .reserved .resetOperandSet

/-- The bit a port is encoded as (R60). -/
def portBit : Port → Bool
  | .js1 => false
  | .js2 => true

/-- The word of a stimulus: `00000pcd`, `01000p00`, `10000000` (R61, R62, R63). -/
def encode : Instr → StimWord
  | .sig p c d => 0b00000#5 ++ BitVec.ofBool (portBit p) ++ BitVec.ofBool c ++ BitVec.ofBool d
  | .poll p => 0b01000#5 ++ BitVec.ofBool (portBit p) ++ 0b00#2
  | .reset => 0b10000000#8

/-- The stimulus word that a table row's bits are: the low `nbits` bits of `w`, as one 8-bit word (every
stimulus is exactly 8 bits long, R60). -/
def tableWord (nbits w : Nat) : StimWord := BitVec.ofNat 8 (w % 2 ^ nbits)

/-- The stimulus the decoder reads from a table row's bits. -/
def decodeTableWord (nbits w : Nat) : Option Instr :=
  match decode (tableWord nbits w) with
  | .stimulus i => some i
  | .reserved _ => none

end Sys2Proof
end

