-- ==== Sys2Proof/Machine/Configuration.lean ====
section
/-! DEFINITION. The configuration the machine runs with: the values 00_scope.md R8 gives its parameters, and
keymaps that are free but for the three entries of 42_keymap_resolver.md R107. -/

namespace Sys2Proof.Machine

/-- `DATA_POS`: the packet bit that carries each button (R8, R53). -/
def defaultDataPos : Button → Nat
  | .left => 7
  | .right => 8
  | .down => 10
  | .up => 11
  | .r1 => 12
  | .l1 => 13
  | .red => 15
  | .yellow => 16
  | .green => 17
  | .l2 => 18
  | .blue => 20
  | .r2 => 21
  | .start => 22
  | .select => 23

/-- The symbol `'a'` (R107). -/
def charA : Symbol := .char 0x61#8 rfl

/-- The symbol `'r'` (R107). -/
def charR : Symbol := .char 0x72#8 rfl

/-- `KEYMAP1` as a total map: `up` is fixed to `UP_ARROW`, every other entry is free (R106, R107). -/
def keymap1Symbol : Button → Symbol
  | .up => .named .upArrow
  | b => Config.openKey1 b

/-- `KEYMAP2` as a total map: `left` is fixed to `'a'` and `red` to `'r'`, every other entry is free
(R106, R107). -/
def keymap2Symbol : Button → Symbol
  | .left => charA
  | .red => charR
  | b => Config.openKey2 b

/-- The keymap of a total map: one entry per button, in the fixed order of R55 (R58). -/
def keymapOf (f : Button → Symbol) : List KeymapEntry :=
  Button.all.map fun b => { button := b.index, value := .symbol (f b) }

/-- The machine's configuration: `EDGE = FALLING` (R71), the framing constants and data positions of R52
and R53, the keymaps of R106 and R107, and a free event order (R103). -/
def configuration : Config where
  edge := .falling
  frameMask := 0x08427F#24
  frameValue := 0x00003E#24
  dataPos := defaultDataPos
  keymap1 := keymapOf keymap1Symbol
  keymap2 := keymapOf keymap2Symbol
  eventOrder := Config.eventPick

end Sys2Proof.Machine
end

