-- ==== Sys2Proof/Machine/InitCheck.lean ====
section
/-! DEFINITION. The keymap check made at power-on and at every RESET (42_keymap_resolver.md R110). -/

namespace Sys2Proof.Machine

/-- Whether a keymap value is a symbol of R56. -/
def valueOk : KeymapValue → Bool
  | .symbol _ => true
  | .unprintable _ => false
  | .unknownKey _ => false

/-- How many entries a keymap has for a button. -/
def entriesFor (km : List KeymapEntry) (b : Button) : Nat :=
  km.countP fun e => e.button == b.index

/-- The three conditions of R110 on one keymap: exactly one entry for each button, none for another identity,
and every value a symbol. -/
def keymapOk (km : List KeymapEntry) : Bool :=
  (Button.all.all fun b => entriesFor km b == 1)
    && (km.all fun e => decide (e.button < 14))
    && (km.all fun e => valueOk e.value)

/-- `config_ok`: both keymaps pass (R110). -/
def configOk (cfg : Config) : Bool := keymapOk cfg.keymap1 && keymapOk cfg.keymap2

end Sys2Proof.Machine
end

