-- ==== Sys2Proof/Machine/State.lean ====
section
/-! DEFINITION. The state of CORE as plain data (10_state.md R20 to R31), the reasons a step can stop, and
the state after power-on. CORE has no memory, no program counter and no register file (R21, R40). -/

namespace Sys2Proof.Machine

/-- The fields of one port (R22, R24, R26). The Edge Sampler owns the first three, the handoff is the next
two, and the consumer owns the last. -/
structure PortState where
  /-- `ACC[p]`: the bit accumulator (R22). -/
  acc : Packet
  /-- `CNT[p]`: the bit-count cursor, 0..23 between stimuli (R22). -/
  cnt : Cursor
  /-- `LASTCLK[p]`: the clock level of the most recent SIG; `none` is ⊥, unknown (R22). -/
  lastClk : Option Bool
  /-- `PKT[p]`: the last completed packet (R24). -/
  pkt : Packet
  /-- `READY[p]`: `PKT[p]` holds a packet that the consumer has not taken (R24, R25). -/
  ready : Bool
  /-- `PREV[p]`: the bitmap of the last valid packet (R26). -/
  prev : Bitmap
  deriving DecidableEq, Repr

/-- The whole machine (R20, R27), and the stimulus words that the environment has issued and that have not
been applied yet (R46; `pending` is the model's own, notes/assumptions/1.md). -/
structure State where
  js1 : PortState
  js2 : PortState
  /-- `OUT`: the output event stream, oldest first (R27). -/
  out : List Event
  /-- `FAULT`: the configuration failed the initialisation check (R27). -/
  fault : Bool
  /-- `REFUSED`: a stimulus word had no meaning (R27). -/
  refused : Bool
  /-- The environment's stimulus words, the next one first. -/
  pending : List StimWord
  deriving DecidableEq, Repr

/-- Why a step stops the machine. -/
inductive Fault where
  /-- `CONFIG_ERROR`, code 3 (60_exceptions.md R122, R123). Raised by every stimulus, RESET included, and by a
  wait, in a state with `FAULT = 1`. Safe: the spec says such a state has no step. -/
  | configError
  deriving DecidableEq, Repr

/-- Why a step is refused. -/
inductive Refusal where
  /-- The instruction has no meaning in this model. Raised by no arm of this model. Safe. -/
  | notModelled (mnemonic : String)
  /-- The configuration is not well-formed (00_scope.md R9). Raised by every operation that is given such a
  configuration; the machine's own is well-formed. Safe: the spec asks for this refusal. -/
  | illFormedConfig (why : ConfigDefect)
  deriving DecidableEq, Repr

/-- A port's fields after reset (R31). -/
def PortState.reset : PortState where
  acc := 0#24
  cnt := 0#5
  lastClk := none
  pkt := 0#24
  ready := false
  prev := 0#14

/-- The machine at power-on (R31, 70_reset_and_hazards.md R141), with no stimulus issued yet. -/
def State.reset : State where
  js1 := PortState.reset
  js2 := PortState.reset
  out := []
  fault := !configOk configuration
  refused := false
  pending := []

end Sys2Proof.Machine
end

