-- ==== Sys2Proof/Machine/Operands.lean ====
section
/-! DEFINITION. The operand forms: a port operand selects one port's fields (00_scope.md R15, 10_state.md
R28). The clock and data operands of SIG are single bits used as they stand (30_encoding.md R60). -/

namespace Sys2Proof.Machine

/-- The port that `p` is not: `1 - p`. -/
def otherPort : Port → Port
  | .js1 => .js2
  | .js2 => .js1

/-- The fields of port `p`: the spec's `X[p]` (R13). -/
def State.port (s : State) : Port → PortState
  | .js1 => s.js1
  | .js2 => s.js2

/-- The state with port `p`'s fields replaced: the spec's `X[p] <- v` (R13). -/
def State.setPort (s : State) (p : Port) (ps : PortState) : State :=
  match p with
  | .js1 => { s with js1 := ps }
  | .js2 => { s with js2 := ps }

/-- The state with `OUT` replaced. -/
def State.setOut (s : State) (out : List Event) : State := { s with out := out }

/-- The state with `REFUSED <- 1`. -/
def State.setRefused (s : State) : State := { s with refused := true }

/-- The state with another list of stimulus words issued by the environment. -/
def State.setPending (s : State) (words : List StimWord) : State := { s with pending := words }

/-- The keymap of port `p`: `KEYMAP1` for JS1, `KEYMAP2` for JS2 (R29, R101). -/
def keymapFor (cfg : Config) : Port → List KeymapEntry
  | .js1 => cfg.keymap1
  | .js2 => cfg.keymap2

end Sys2Proof.Machine
end

