-- ==== Sys2Proof/Machine/Keymap.lean ====
section
/-! DEFINITION. The Keymap Resolver: change detection, symbol resolution and the events of one packet
(42_keymap_resolver.md R100 to R103). -/

namespace Sys2Proof.Machine

/-- `changed` of `diff(NEW, PREV)` (R100). -/
def changedButtons (new prev : Bitmap) : Bitmap := new ^^^ prev

/-- `pressed` of `diff(NEW, PREV)` (R100). -/
def pressedButtons (new prev : Bitmap) : Bitmap := changedButtons new prev &&& new

/-- `released` of `diff(NEW, PREV)` (R100). -/
def releasedButtons (new prev : Bitmap) : Bitmap := changedButtons new prev &&& prev

/-- The symbol in a keymap value, if it is one (R56). -/
def valueSymbol : KeymapValue → Option Symbol
  | .symbol s => some s
  | .unprintable _ => none
  | .unknownKey _ => none

/-- `resolve(p, i)`: the entry of port `p`'s keymap for a button (R101). It is there for every configuration
that passed R110. -/
def resolve (cfg : Config) (p : Port) (b : Button) : Option Symbol :=
  ((keymapFor cfg p).find? fun e => e.button == b.index).bind fun e => valueSymbol e.value

/-- Which event a changed button gives (R102). -/
def directionOf (new : Bitmap) (b : Button) : Direction :=
  if new.getLsbD b.index then .pressed else .released

/-- The event of one button, if its state changed (R102). -/
def buttonEvent (cfg : Config) (p : Port) (new prev : Bitmap) (b : Button) : Option Event :=
  if (changedButtons new prev).getLsbD b.index then
    (resolve cfg p b).map fun sym => { sym, dir := directionOf new b }
  else none

/-- `events(p, NEW, PREV)` in ascending button index (R102, and the reference order of R103). -/
def events (cfg : Config) (p : Port) (new prev : Bitmap) : List Event :=
  Button.all.filterMap (buttonEvent cfg p new prev)

/-- `a` put into a list at a position, or at the end where the list is shorter. -/
def insertAt {α : Type} (a : α) : List α → Nat → List α
  | [], _ => [a]
  | b :: rest, 0 => a :: b :: rest
  | b :: rest, n + 1 => b :: insertAt a rest n

/-- A list in the order that `pick` chooses: the element with `k` elements after it is put at position
`pick k` among them. Every `pick` gives a permutation, and every permutation has a `pick` (R103). -/
def permute {α : Type} (pick : Nat → Nat) : List α → List α
  | [] => []
  | a :: rest => insertAt a (permute pick rest) (pick rest.length)

/-- The events of one valid packet in the free order `EVENT_ORDER`, where `emitted` events stand in `OUT`
already (R102, R103). -/
def orderedEvents (cfg : Config) (emitted : Nat) (p : Port) (new prev : Bitmap) : List Event :=
  permute (cfg.eventOrder emitted p new prev) (events cfg p new prev)

end Sys2Proof.Machine
end

