-- ==== Sys2Proof/Machine/Flags.lean ====
section
/-! DEFINITION. CORE's one status flag, `READY[p]` (10_state.md R25): set at a capture, cleared by the take and
by RESET. It has no condition codes. The per-port states of the source's machine are read off here too
(R30). -/

namespace Sys2Proof.Machine

/-- `READY[p] <- 1`, which only a capture does (R25, R75). -/
def PortState.raiseReady (ps : PortState) : PortState := { ps with ready := true }

/-- `READY[p] <- 0`, which the take does (R25, R108). -/
def PortState.lowerReady (ps : PortState) : PortState := { ps with ready := false }

/-- The port is in the source's state `AWAITING_BITS(n)` (R30). -/
def PortState.awaitingBits (ps : PortState) (n : Nat) : Bool := ps.cnt.toNat == n

/-- The port is in the source's state `PACKET_COMPLETE` (R30). -/
def PortState.packetComplete (ps : PortState) : Bool := ps.ready

end Sys2Proof.Machine
end

