-- ==== Sys2Proof/Machine/Ops.lean ====
section
/-! DEFINITION. The operations the meanings share. CORE has no memory to access and takes no exception
(20_memory.md R40, 60_exceptions.md R124): what stands here in their place is the one guard that every
stimulus passes (R9, R123), the environment's stimulus queue, and the arithmetic of the accumulator
(40_edge_sampler.md R74 to R76). -/

namespace Sys2Proof.Machine

/-- Every stimulus goes through this guard. A configuration that is not well-formed is refused by name (R9);
a state with `FAULT = 1` has no step (R123); otherwise the stimulus takes the state it computes. -/
def running (cfg : Config) (s after : State) : Host.Outcome State Fault Refusal :=
  match cfg.defect?, s.fault with
  | some why, _ => .refused (.illFormedConfig why)
  | none, true => .fault .configError
  | none, false => .next after

/-- The environment's next stimulus word and the state without it (R46). -/
def nextWord (s : State) : Option (StimWord × State) :=
  match s.pending with
  | [] => none
  | w :: rest => some (w, s.setPending rest)

/-- Put a stimulus word in front of what the environment has issued. -/
def State.pushWord (s : State) (w : StimWord) : State := s.setPending (w :: s.pending)

/-- No stimulus is there: CORE waits with its state held (R133, R142). -/
def waitStep (s : State) : Host.Outcome State Fault Refusal := running configuration s s

/-- A reserved word sets `REFUSED` and changes nothing else (R64). -/
def reservedWordStep (_why : Reserved) (s : State) : Host.Outcome State Fault Refusal :=
  running configuration s s.setRefused

/-- Which end of the accumulator a sampled bit enters. CORE is `msbFirst` (R51); the other reading is here so
that R51's remark about it can be stated. -/
inductive BitOrder where
  | msbFirst
  | lsbFirst
  deriving DecidableEq, Repr

/-- The accumulator with one more bit in it. Under `msbFirst`: shifted left within 24 bits, the new bit at
bit 0, the old bit 23 dropped (R74). -/
def shiftIn : BitOrder → Packet → Bool → Packet
  | .msbFirst, acc, d => (acc <<< 1) ||| (BitVec.ofBool d).setWidth 24
  | .lsbFirst, acc, d => (acc >>> 1) ||| ((BitVec.ofBool d).setWidth 24 <<< 23)

/-- The capture: the packet is handed over and the count starts again (R75). -/
def PortState.capture (ps : PortState) (packet : Packet) : PortState :=
  { ps.raiseReady with pkt := packet, acc := 0#24, cnt := 0#5 }

/-- The overflow recovery of an illegal cursor: the bit is discarded (R76). -/
def PortState.recover (ps : PortState) : PortState := { ps with acc := 0#24, cnt := 0#5 }

/-- One sampled bit: shifted in and counted, and at the 24th bit captured; an illegal cursor is recovered
instead (R74, R75, R76). -/
def PortState.sampleBit (order : BitOrder) (ps : PortState) (d : Bool) : PortState :=
  if 24 ≤ ps.cnt.toNat then ps.recover
  else if ps.cnt.toNat + 1 = packetWidth then ps.capture (shiftIn order ps.acc d)
  else { ps with acc := shiftIn order ps.acc d, cnt := BitVec.ofNat 5 (ps.cnt.toNat + 1) }

end Sys2Proof.Machine
end

