-- ==== Sys2Proof/Machine/Consumer.lean ====
section
/-! DEFINITION. The consumer step: the stimulus POLL (42_keymap_resolver.md R108). -/

namespace Sys2Proof.Machine

/-- A taken packet that passed the check: its events go to `OUT` and its bitmap becomes `PREV[p]` (R108). -/
def acceptPacket (cfg : Config) (p : Port) (new : Bitmap) (s : State) : State :=
  (s.setPort p { (s.port p).lowerReady with prev := new }).setOut
    (s.out ++ orderedEvents cfg s.out.length p new (s.port p).prev)

/-- A taken packet that failed the check: only `READY[p]` changes (R108, 60_exceptions.md R120). -/
def discardPacket (p : Port) (s : State) : State := s.setPort p (s.port p).lowerReady

/-- The state after POLL, with the configuration as a parameter (R108). -/
def pollState (cfg : Config) (p : Port) (s : State) : State :=
  if (s.port p).ready then
    match decodePacket cfg (s.port p).pkt with
    | .noChange => discardPacket p s
    | .new b => acceptPacket cfg p b s
  else s

/-- POLL with the configuration as a parameter (R108). -/
def pollWith (cfg : Config) (p : Port) (s : State) : Host.Outcome State Fault Refusal :=
  running cfg s (pollState cfg p s)

/-- POLL (R108). -/
def execPoll (p : Port) (s : State) : Host.Outcome State Fault Refusal :=
  pollWith configuration p s

end Sys2Proof.Machine
end

