-- ==== Sys2Proof/Machine/EdgeSampler.lean ====
section
/-! DEFINITION. The Edge Sampler and Packet Assembler: the stimulus SIG (40_edge_sampler.md R70 to R80). -/

namespace Sys2Proof.Machine

/-- Whether a clock level is an active edge after the level before it (R71). An unknown level before it never
makes one (R72). -/
def active (edge : Edge) (prev : Option Bool) (c : Bool) : Bool :=
  match prev with
  | none => false
  | some before =>
    match edge with
    | .falling => before && !c
    | .rising => !before && c
    | .both => before != c

/-- What a SIG does to its port (R77): it stores the clock level, and at an active edge it samples the data
level of the same word. -/
def samplePort (order : BitOrder) (cfg : Config) (c d : Bool) (ps : PortState) : PortState :=
  if active cfg.edge ps.lastClk c then ({ ps with lastClk := some c } : PortState).sampleBit order d
  else { ps with lastClk := some c }

/-- The state after SIG, with the bit order and the configuration as parameters (R77). -/
def sigState (order : BitOrder) (cfg : Config) (p : Port) (c d : Bool) (s : State) : State :=
  s.setPort p (samplePort order cfg c d (s.port p))

/-- SIG with the configuration as a parameter (R77). -/
def sigWith (cfg : Config) (p : Port) (c d : Bool) (s : State) : Host.Outcome State Fault Refusal :=
  running cfg s (sigState .msbFirst cfg p c d s)

/-- SIG (R77). -/
def execSig (p : Port) (c d : Bool) (s : State) : Host.Outcome State Fault Refusal :=
  sigWith configuration p c d s

end Sys2Proof.Machine
end

