-- ==== Sys2Proof/Machine/Reset.lean ====
section
/-! DEFINITION. The stimulus RESET (70_reset_and_hazards.md R140). -/

namespace Sys2Proof.Machine

/-- The state after RESET, with the configuration as a parameter: every port field at its reset value and the
keymap check made again; `OUT`, `REFUSED` and what the environment has issued are unchanged (R140). -/
def resetState (cfg : Config) (s : State) : State :=
  { s with js1 := PortState.reset, js2 := PortState.reset, fault := !configOk cfg }

/-- RESET with the configuration as a parameter (R140). -/
def resetWith (cfg : Config) (s : State) : Host.Outcome State Fault Refusal :=
  running cfg s (resetState cfg s)

/-- RESET (R140). -/
def execReset (s : State) : Host.Outcome State Fault Refusal :=
  resetWith configuration s

end Sys2Proof.Machine
end

