-- ==== Sys2Proof/Machine/Dispatch.lean ====
section
/-! DEFINITION. One stimulus to one meaning. -/

namespace Sys2Proof.Machine

def exec (i : Instr) (s : State) : Host.Outcome State Fault Refusal :=
  match i with
  | .sig p c d => Sys2Proof.Machine.execSig p c d s
  | .poll p => Sys2Proof.Machine.execPoll p s
  | .reset => Sys2Proof.Machine.execReset s

end Sys2Proof.Machine
end

