-- ==== Sys2Proof/Machine/Step.lean ====
section
/-! DEFINITION. One step of the machine: the environment's next stimulus word is applied atomically to the
state the last one left (20_memory.md R44, R46). -/

namespace Sys2Proof.Machine

/-- Take the next stimulus word and apply it. A reserved word only sets `REFUSED` (R64). With no word issued,
CORE waits with its state held (R133). In a state with `FAULT = 1` none of these has a step (R123). -/
def step (s : State) : Host.Outcome State Fault Refusal :=
  match nextWord s with
  | none => waitStep s
  | some (w, s') =>
    match decode w with
    | .stimulus i => exec i s'
    | .reserved why => reservedWordStep why s'

/-- The state in which the environment's next stimulus word is a table row's word. Nothing else changes. -/
def State.withFetchWord (s : State) (nbits w : Nat) : State := s.pushWord (tableWord nbits w)

end Sys2Proof.Machine
end

