-- ==== Sys2Proof/Machine/Errors.lean ====
section
/-! DEFINITION. The three error causes of the spec and where a stimulus meets one (60_exceptions.md R120 to
R123, R127). Nothing in CORE records the first two: this is an observation of a stimulus, not state. -/

namespace Sys2Proof.Machine

/-- The error causes (60_exceptions.md section 1). Only the third is a fault. -/
inductive ErrorCause where
  /-- POLL takes a packet whose framing does not match (R120). -/
  | framingMismatch
  /-- An active edge finds the cursor at 24 or more (R121). -/
  | cursorOverflow
  /-- The keymap check fails (R122). -/
  | configError
  deriving DecidableEq, Repr

/-- The spec's code of an error cause. -/
def errorCode : ErrorCause → Nat
  | .framingMismatch => 1
  | .cursorOverflow => 2
  | .configError => 3

/-- The error a stimulus meets when it is applied to a state, with the configuration as a parameter (R120,
R121, R122). -/
def errorMet (cfg : Config) (i : Instr) (s : State) : Option ErrorCause :=
  match i with
  | .sig p c _ =>
    if active cfg.edge (s.port p).lastClk c && decide (24 ≤ (s.port p).cnt.toNat) then some .cursorOverflow else none
  | .poll p => if (s.port p).ready && !validPacket cfg (s.port p).pkt then some .framingMismatch else none
  | .reset => if configOk cfg then none else some .configError

end Sys2Proof.Machine
end

