-- ==== Sys2Proof/Machine/Events.lean ====
section
/-! DEFINITION. The bit-level forms of symbols, events and bitmaps: the 10-bit event word (30_encoding.md
R56, R57), the reading of a raw keymap value, and the two-byte form of a bitmap (20_memory.md R42). -/

namespace Sys2Proof.Machine

/-- The index of a named key (R56). -/
def keyIndex : NamedKey → Nat
  | .leftArrow => 0
  | .rightArrow => 1
  | .upArrow => 2
  | .downArrow => 3
  | .returnKey => 4
  | .escape => 5
  | .rightShift => 6
  | .rightCtrl => 7
  | .rightAlt => 8

/-- The named key of an index; there are nine (R56). -/
def keyOfIndex : Nat → Option NamedKey
  | 0 => some .leftArrow
  | 1 => some .rightArrow
  | 2 => some .upArrow
  | 3 => some .downArrow
  | 4 => some .returnKey
  | 5 => some .escape
  | 6 => some .rightShift
  | 7 => some .rightCtrl
  | 8 => some .rightAlt
  | _ => none

/-- The keymap value that a character code is: a symbol exactly when it is printable (R56, R110). -/
def charValue (code : BitVec 8) : KeymapValue :=
  if h : isPrintable code = true then .symbol (.char code h) else .unprintable code

/-- The keymap value that a key number is: a symbol exactly when it names one of the nine (R56, R110). -/
def keyValue (index : Nat) : KeymapValue :=
  match keyOfIndex index with
  | some k => .symbol (.named k)
  | none => .unknownKey index

/-- The kind bit `E[8]` and the field `E[7:0]` of a symbol (R57). -/
def symbolField : Symbol → BitVec 9
  | .char code _ => 0#1 ++ code
  | .named k => 1#1 ++ BitVec.ofNat 8 (keyIndex k)

/-- The event word: `E[9]` the direction, `E[8]` the kind, `E[7:0]` the code or key index (R57). -/
def eventWord (e : Event) : EventWord :=
  BitVec.ofBool (decide (e.dir = .pressed)) ++ symbolField e.sym

/-- The symbol of a kind bit and a field, where they are one (R56, R57). -/
def symbolOfField (named : Bool) (field : BitVec 8) : Option Symbol :=
  if named then (keyOfIndex field.toNat).map .named
  else if h : isPrintable field = true then some (.char field h) else none

/-- The event an event word stands for, where it stands for one (R57). -/
def eventOfWord (w : EventWord) : Option Event :=
  (symbolOfField (w.getLsbD 8) (w.extractLsb' 0 8)).map fun sym =>
    { sym, dir := if w.getLsbD 9 then .pressed else .released }

/-- Byte 0 of a bitmap's two-byte form: bits 7..0 (R42). -/
def bitmapByte0 (b : Bitmap) : BitVec 8 := b.extractLsb' 0 8

/-- Byte 1 of a bitmap's two-byte form: bits 13..8 in its bits 5..0, and 0 in its bits 7..6 (R42). -/
def bitmapByte1 (b : Bitmap) : BitVec 8 := 0#2 ++ b.extractLsb' 8 6

/-- The bitmap of two bytes (R42). DESIGN CHOICE: of byte 1 only bits 5..0 are read, so a byte 1 with a bit of 7..6
set, which R42 never produces, reads back as if those bits were 0 (notes/assumptions/19.md). -/
def bitmapOfBytes (byte0 byte1 : BitVec 8) : Bitmap := byte1.extractLsb' 0 6 ++ byte0

end Sys2Proof.Machine
end

