-- ==== Sys2Proof/Machine/Footprint.lean ====
section
/-! DEFINITION. The agents that apply the stimuli (20_memory.md R46, 60_exceptions.md R131), and the read and
write set the spec gives each stimulus (10_state.md R32). -/

namespace Sys2Proof.Machine

/-- The agents of CORE (R46, R131). -/
inductive Agent where
  | sampler (p : Port)
  | consumer
  deriving DecidableEq, Repr

/-- The agent a stimulus drives; RESET restarts all three (R131, R140). -/
def agentOf : Instr → Option Agent
  | .sig p _ _ => some (.sampler p)
  | .poll _ => some .consumer
  | .reset => none

/-- The elements of CORE's state (R20 to R27). -/
inductive Field where
  | acc (p : Port)
  | cnt (p : Port)
  | lastClk (p : Port)
  | pkt (p : Port)
  | ready (p : Port)
  | prev (p : Port)
  | out
  | fault
  | refused
  deriving DecidableEq, Repr

/-- Two states hold the same value in a field. -/
abbrev sameField (f : Field) (s t : State) : Prop :=
  match f with
  | .acc p => (s.port p).acc = (t.port p).acc
  | .cnt p => (s.port p).cnt = (t.port p).cnt
  | .lastClk p => (s.port p).lastClk = (t.port p).lastClk
  | .pkt p => (s.port p).pkt = (t.port p).pkt
  | .ready p => (s.port p).ready = (t.port p).ready
  | .prev p => (s.port p).prev = (t.port p).prev
  | .out => s.out = t.out
  | .fault => s.fault = t.fault
  | .refused => s.refused = t.refused

/-- The fields of one port. -/
def portFields (p : Port) : List Field := [.acc p, .cnt p, .lastClk p, .pkt p, .ready p, .prev p]

/-- The fields a stimulus reads (R32). RESET reads the configuration alone; that it has no step when `FAULT = 1`
(R140) is the guard every stimulus passes. -/
def readSet : Instr → List Field
  | .sig p _ _ => [.lastClk p, .cnt p, .acc p, .fault]
  | .poll p => [.ready p, .pkt p, .prev p, .fault]
  | .reset => []

/-- The fields a stimulus writes (R32): RESET writes every element but `OUT` and `REFUSED`. -/
def writeSet : Instr → List Field
  | .sig p _ _ => [.lastClk p, .acc p, .cnt p, .pkt p, .ready p]
  | .poll p => [.ready p, .prev p, .out]
  | .reset => portFields .js1 ++ portFields .js2 ++ [.fault]

end Sys2Proof.Machine
end

