-- ==== Sys2Proof/Machine/PseudoStimuli.lean ====
section
/-! DEFINITION. The pseudo-stimuli IDLE, BIT and PACKET and what they expand to (30_encoding.md R66), and the
assembler's spelling of the real ones (R65). -/

namespace Sys2Proof.Machine

/-- The pseudo-stimuli (R66). -/
inductive Pseudo where
  /-- `IDLE p`: set the clock line to its idle level. -/
  | idle (p : Port)
  /-- `BIT p, d`: one clock cycle with data `d`. -/
  | bit (p : Port) (d : Bool)
  /-- `PACKET p, v`: the 24 bits of `v`, most significant first. -/
  | packet (p : Port) (v : Packet)
  deriving DecidableEq, Repr

/-- The clock level before the active edge; the level after it is the other one (R66). The spec gives no
expansion for `EDGE = BOTH`, where every transition is active. -/
def idleLevel : Edge → Option Bool
  | .falling => some true
  | .rising => some false
  | .both => none

/-- The two SIGs of one BIT (R66). -/
def bitStimuli (p : Port) (idle d : Bool) : List Instr := [.sig p idle d, .sig p (!idle) d]

/-- The bits of a packet in wire order: wire index `k` is packet bit `23 - k` (R51). -/
def wireBits (v : Packet) : List Bool := (List.range packetWidth).map fun k => v.getLsbD (23 - k)

/-- What a pseudo-stimulus expands to (R66). -/
def expand (edge : Edge) (x : Pseudo) : Option (List Instr) :=
  (idleLevel edge).map fun idle =>
    match x with
    | .idle p => [.sig p idle false]
    | .bit p d => bitStimuli p idle d
    | .packet p v => (wireBits v).flatMap (bitStimuli p idle)

/-- The spelling of a port (R65). -/
def portName : Port → String
  | .js1 => "JS1"
  | .js2 => "JS2"

/-- The spelling of a line level (R65). -/
def levelName : Bool → String
  | false => "0"
  | true => "1"

/-- One line of the assembler: the mnemonic, then the operands with commas between them (R65). -/
def asmLine : Instr → String
  | .sig p c d => "SIG " ++ portName p ++ ", " ++ levelName c ++ ", " ++ levelName d
  | .poll p => "POLL " ++ portName p
  | .reset => "RESET"

/-- The eleven stimuli, in ascending order of their words (R64). -/
def allStimuli : List Instr :=
  (List.range 256).filterMap fun n => decodeTableWord 8 n

/-- The stimulus a line of the assembler names, if it is spelled as `asmLine` spells one (R65). -/
def parseLine (line : String) : Option Instr :=
  allStimuli.find? fun i => asmLine i == line

end Sys2Proof.Machine
end

