-- ==== Sys2Proof/Machine/WireView.lean ====
section
/-! DEFINITION. What the wire carried, read off a list of SIGs without the sampler's registers
(40_edge_sampler.md R74, R75, R79), and the LSB-first reading of the packet (30_encoding.md R51). -/

namespace Sys2Proof.Machine

/-- The data levels at the active edges of a list of SIGs (clock level, data level) of one port (R71, R74). -/
def sampledBits (edge : Edge) : Option Bool → List (Bool × Bool) → List Bool
  | _, [] => []
  | prev, (c, d) :: rest =>
    if active edge prev c then d :: sampledBits edge (some c) rest else sampledBits edge (some c) rest

/-- The packet that 24 bits in wire order make: wire index `k` is packet bit `23 - k` (R51). -/
def packetOfWire (bits : List Bool) : Packet := gather 24 fun n => bits.getD (23 - n) false

/-- The fields of a port after a list of SIGs (R77). -/
def sampleAll (cfg : Config) (ps : PortState) (sigs : List (Bool × Bool)) : PortState :=
  sigs.foldl (fun q x => samplePort .msbFirst cfg x.1 x.2 q) ps

/-- A packet with its bits reversed: `n -> 23 - n` (R51). -/
def reversePacket (v : Packet) : Packet := gather 24 fun n => v.getLsbD (23 - n)

/-- The configuration of the other bit order: every packet position reversed (R51). -/
def reverseConfig (cfg : Config) : Config :=
  { cfg with
    frameMask := reversePacket cfg.frameMask
    frameValue := reversePacket cfg.frameValue
    dataPos := fun b => 23 - cfg.dataPos b }

/-- A port's fields as the other bit order holds them. -/
def reversePort (ps : PortState) : PortState :=
  { ps with acc := reversePacket ps.acc, pkt := reversePacket ps.pkt }

/-- A state as the other bit order holds it: `OUT` and the rest are the same. -/
def reverseState (s : State) : State :=
  { s with js1 := reversePort s.js1, js2 := reversePort s.js2 }

end Sys2Proof.Machine
end

