-- ==== Sys2Proof/Safety.lean ====
section
/-! DEFINITION. What a safe run of CORE is, in the terms the claims use. -/

namespace Sys2Proof.Machine

/-- `n` steps of the machine, stopping at the first fault or refusal: what `Host.Core.run` does, over `step`. -/
def runSteps : Nat → State → Host.Outcome State Fault Refusal
  | 0, s => .next s
  | n + 1, s =>
    match step s with
    | .next t => runSteps n t
    | .fault r => .fault r
    | .refused r => .refused r

/-- The premise of a claim about CORE: `FAULT = 0` and `REFUSED = 0` (60_exceptions.md R123). -/
abbrev State.Live (s : State) : Prop := s.fault = false ∧ s.refused = false

/-- The fields of a port are ones that a run from reset can reach: the cursor is 0..23 (10_state.md R22), the
accumulator holds no more bits than the cursor counts (40_edge_sampler.md R80), and while the clock level is
unknown the port is as reset left it (R31, R72). -/
abbrev PortState.Legal (ps : PortState) : Prop :=
  ps.cnt.toNat ≤ 23 ∧ ps.acc.toNat < 2 ^ ps.cnt.toNat ∧ (ps.lastClk = none → ps = PortState.reset)

/-- Both ports are legal and the configuration passed its check. -/
abbrev State.Legal (s : State) : Prop := s.js1.Legal ∧ s.js2.Legal ∧ s.fault = false

/-- Two ports differ at most in what CORE never uses: accumulator bits that the current packet has not filled
(R23), and the packet buffer while it holds no packet (R31). -/
abbrev PortState.SameUpToUnused (a b : PortState) : Prop :=
  a.cnt = b.cnt ∧ a.lastClk = b.lastClk ∧ a.ready = b.ready ∧ a.prev = b.prev ∧
    (∀ j < a.cnt.toNat, a.acc.getLsbD j = b.acc.getLsbD j) ∧ (a.ready = true → a.pkt = b.pkt)

/-- Two states differ at most in what CORE never uses. -/
abbrev State.SameUpToUnused (s t : State) : Prop :=
  s.js1.SameUpToUnused t.js1 ∧ s.js2.SameUpToUnused t.js2 ∧
    s.out = t.out ∧ s.fault = t.fault ∧ s.refused = t.refused ∧ s.pending = t.pending

end Sys2Proof.Machine
end

