-- ==== Sys2Proof/Certificates/Slice0/Obligations.lean ====
section
/-! DEFINITION. The statements for the provers, from the numbered rules of spec/. A statement that holds of
every configuration takes it as `cfg`; one about `exec` or `step` is about the machine's own. The free values
(keymap entries, event order) are never evaluated: a statement about events names the resolved symbol, and a
statement about `OUT` names a permutation. -/

open Sys2Proof Sys2Proof.Machine

namespace Sys2Proof.Claims

/-- The stimulus words of a list of SIGs (clock level, data level) of one port. -/
def sigWords (p : Port) (sigs : List (Bool × Bool)) : List StimWord :=
  sigs.map fun x => encode (.sig p x.1 x.2)

/-- The 48 stimulus words of `PACKET p, v` under `EDGE = FALLING` (R66). -/
def packetWords (p : Port) (v : Packet) : List StimWord :=
  ((wireBits v).flatMap (bitStimuli p true)).map encode

/-- The words of a list of packets, each followed by one POLL of its port. -/
def polledWords (p : Port) (vs : List Packet) : List StimWord :=
  vs.flatMap fun v => packetWords p v ++ [encode (.poll p)]

/-- The bitmap a consumer holds after a packet: the packet's own if it is valid, else the one before. -/
def bitmapAfter (prev : Bitmap) (v : Packet) : Bitmap :=
  if validPacket configuration v then mapPacket configuration v else prev

/-- The events a packet calls for, after a given bitmap. -/
def eventsAfter (p : Port) (prev : Bitmap) (v : Packet) : List Event :=
  if validPacket configuration v then events configuration p (mapPacket configuration v) prev else []

/-- The events that each packet of a list calls for, in turn. -/
def eventsOfPackets (p : Port) : Bitmap → List Packet → List (List Event)
  | _, [] => []
  | prev, v :: vs => eventsAfter p prev v :: eventsOfPackets p (bitmapAfter prev v) vs

/-- The fields of a port after an active edge with the cursor at 0..23 (R74, R75), written out. -/
def afterActiveEdge (ps : PortState) (c d : Bool) : PortState :=
  if ps.cnt.toNat + 1 = 24 then
    { ps with
      lastClk := some c
      pkt := (ps.acc <<< 1) ||| (BitVec.ofBool d).setWidth 24
      ready := true
      acc := 0x000000#24
      cnt := 0#5 }
  else
    { ps with
      lastClk := some c
      acc := (ps.acc <<< 1) ||| (BitVec.ofBool d).setWidth 24
      cnt := BitVec.ofNat 5 (ps.cnt.toNat + 1) }

/-- The stimulus is the capture of a packet on port `p`: an active edge that finds 23 bits collected (R75). -/
def captures (i : Instr) (s : State) (p : Port) (packet : Packet) : Prop :=
  ∃ d, i = .sig p false d ∧ (s.port p).lastClk = some true ∧ (s.port p).cnt.toNat = 23 ∧
    packet = ((s.port p).acc <<< 1) ||| (BitVec.ofBool d).setWidth 24

/-- The step from `s` to `t` is no capture on port `p`: it waits, takes a reserved word, or applies a stimulus that
captures nothing there. -/
def stepWithoutCapture (p : Port) (s t : State) : Prop :=
  step s = .next t ∧ ∀ (w : StimWord) (rest : List StimWord) (i : Instr) (packet : Packet),
    s.pending = w :: rest → decode w = .stimulus i → ¬ captures i s p packet

/-- The keymap of one port passes the check of R110, said as its three conditions. -/
def KeymapComplete (km : List KeymapEntry) : Prop :=
  (∀ b : Button, ∃ e, km.filter (fun x => x.button == b.index) = [e]) ∧
  (∀ e ∈ km, ∃ b : Button, e.button = b.index) ∧
  (∀ e ∈ km, ∃ sym, e.value = .symbol sym)

end Sys2Proof.Claims

open Sys2Proof.Claims

/-! ## Encodings -/

/-- R60 to R63: the decoder reads a word as a stimulus exactly when the word is that stimulus's encoding. -/
def Obligations.DecodeIsInverseOfEncode : Prop :=
  ∀ (w : StimWord) (i : Instr), decode w = .stimulus i ↔ w = encode i

/-- Words written out from R61, R62 and R63, and what they spell. -/
def Obligations.SpecWordsDecode : Prop :=
  decode 0b00000000#8 = .stimulus (.sig .js1 false false) ∧
  decode 0b00000011#8 = .stimulus (.sig .js1 true true) ∧
  decode 0b00000101#8 = .stimulus (.sig .js2 false true) ∧
  decode 0b01000000#8 = .stimulus (.poll .js1) ∧
  decode 0b01000100#8 = .stimulus (.poll .js2) ∧
  decode 0b10000000#8 = .stimulus .reset

/-- R64: which words are reserved, how many there are, and what a reserved word does. (That a step which takes one
answers a next state, the one with `REFUSED = 1`, is the model's reading: notes/assumptions/2.md.) -/
def Obligations.ReservedWordsOnlySetRefused : Prop :=
  (∀ w : StimWord, (∃ why, decode w = .reserved why) ↔
    (w.extractLsb' 6 2 = 0b11#2 ∨ w.extractLsb' 3 3 ≠ 0b000#3 ∨
      (w.extractLsb' 6 2 = 0b01#2 ∧ w.extractLsb' 0 2 ≠ 0b00#2) ∨
      (w.extractLsb' 6 2 = 0b10#2 ∧ w.extractLsb' 0 3 ≠ 0b000#3))) ∧
  (((List.range 256).map (BitVec.ofNat 8)).countP fun w =>
    match decode w with | .reserved _ => true | .stimulus _ => false) = 245 ∧
  (∀ (s : State) (w : StimWord) (rest : List StimWord) (why : Reserved), s.fault = false →
    s.pending = w :: rest → decode w = .reserved why →
    step s = .next (s.setPending rest).setRefused) ∧
  (∀ s t : State, s.refused = true → step s = .next t → t.refused = true ∧ ¬ t.Live)

/-- R57: the fields of an event word, their ranges, and that the word gives the event back. The ranges are the
spec's inference from R58 and R110 ("No event CORE emits has `E[8] = 1` with `E[7:0] > 8`, or `E[8] = 0` with
`E[7:0]` outside 0x20..0x7E"), and hold here by the type of a symbol (notes/assumptions/8.md). -/
def Obligations.EventWordsFollowTheirFields : Prop :=
  (∀ e : Event,
    ((eventWord e).getLsbD 9 = true ↔ e.dir = .pressed) ∧
    (match e.sym with
      | .char code _ => (eventWord e).getLsbD 8 = false ∧ (eventWord e).extractLsb' 0 8 = code
      | .named k => (eventWord e).getLsbD 8 = true ∧ ((eventWord e).extractLsb' 0 8).toNat = keyIndex k) ∧
    ((eventWord e).getLsbD 8 = true → ((eventWord e).extractLsb' 0 8).toNat ≤ 8) ∧
    ((eventWord e).getLsbD 8 = false →
      0x20 ≤ ((eventWord e).extractLsb' 0 8).toNat ∧ ((eventWord e).extractLsb' 0 8).toNat ≤ 0x7E)) ∧
  (∀ (e : Event) (w : EventWord), eventOfWord w = some e ↔ w = eventWord e)

/-- R42, second order: the two bytes of a bitmap. -/
def Obligations.BitmapTwoByteForm : Prop :=
  ∀ b : Bitmap,
    (∀ i < 8, (bitmapByte0 b).getLsbD i = b.getLsbD i) ∧
    (∀ i < 6, (bitmapByte1 b).getLsbD i = b.getLsbD (8 + i)) ∧
    (bitmapByte1 b).getLsbD 6 = false ∧ (bitmapByte1 b).getLsbD 7 = false ∧
    bitmapOfBytes (bitmapByte0 b) (bitmapByte1 b) = b

/-- R94, which the spec infers from R90, R91, R93 and R9 ("These laws follow from rules R90, R91 and R93 for every
well-formed configuration"): the laws of packet construction, check and mapper. (Law 1,
determinism, is that `decodePacket` is a function of the configuration and the packet.) -/
def Obligations.PacketEncodeDecodeLaws : Prop :=
  ∀ cfg : Config, cfg.WellFormed →
    (∀ P Q : Packet, P = Q → decodePacket cfg P = decodePacket cfg Q) ∧
    (∀ B : Bitmap, validPacket cfg (encPacket cfg B) = true ∧ mapPacket cfg (encPacket cfg B) = B) ∧
    (∀ P : Packet, validPacket cfg P = true → encPacket cfg (mapPacket cfg P) = P) ∧
    Nat.card { P : Packet // validPacket cfg P = true } = 2 ^ 14

/-- R65 (the exact spaces and case are the model's choice, notes/assumptions/15.md): every line of the assembler
is read as the stimulus it spells, and as no other. -/
def Obligations.AssemblerLinesRoundTrip : Prop :=
  ∀ (i : Instr) (line : String), parseLine line = some i ↔ line = asmLine i

/-- R66, which the spec infers from R61, R71 and R74: what IDLE, BIT and PACKET expand to, for a falling and for a
rising active edge. -/
def Obligations.PseudoStimuliExpand : Prop :=
  (∀ p, expand .falling (.idle p) = some [.sig p true false]) ∧
  (∀ p d, expand .falling (.bit p d) = some [.sig p true d, .sig p false d]) ∧
  (∀ p, expand .rising (.idle p) = some [.sig p false false]) ∧
  (∀ p d, expand .rising (.bit p d) = some [.sig p false d, .sig p true d]) ∧
  (∀ d, ([.sig .js1 true d, .sig .js1 false d] : List Instr).map encode =
    [0x02#8 ||| (BitVec.ofBool d).setWidth 8, 0x00#8 ||| (BitVec.ofBool d).setWidth 8]) ∧
  (∀ d, ([.sig .js2 true d, .sig .js2 false d] : List Instr).map encode =
    [0x06#8 ||| (BitVec.ofBool d).setWidth 8, 0x04#8 ||| (BitVec.ofBool d).setWidth 8]) ∧
  (∀ (edge : Edge) (idle : Bool) (p : Port) (v : Packet), idleLevel edge = some idle →
    ∃ l, expand edge (.packet p v) = some l ∧ l.length = 48 ∧
      ∀ k < 24, l[2 * k]? = some (.sig p idle (v.getLsbD (23 - k))) ∧
        l[2 * k + 1]? = some (.sig p (!idle) (v.getLsbD (23 - k))))

/-! ## The Edge Sampler: SIG -/

/-- R71: which SIGs are active edges, for every value of `EDGE`, and the value the spec takes (from general
knowledge, as R71 says: notes/assumptions/7.md). -/
def Obligations.ActiveEdgePredicate : Prop :=
  (∀ (edge : Edge) (prev : Option Bool) (c : Bool), active edge prev c = true ↔
    prev ≠ none ∧
      ((edge = .falling ∧ prev = some true ∧ c = false) ∨
       (edge = .rising ∧ prev = some false ∧ c = true) ∨
       (edge = .both ∧ prev ≠ some c))) ∧
  configuration.edge = .falling

/-- R72: while the clock level is unknown, a SIG only sets it, whatever the configured edge is; and that is the
state after reset. -/
def Obligations.FirstSigOnlySetsTheLevel : Prop :=
  (∀ (cfg : Config) (p : Port) (c d : Bool) (s : State), cfg.WellFormed → s.fault = false →
    (s.port p).lastClk = none →
    sigWith cfg p c d s = .next (s.setPort p { s.port p with lastClk := some c })) ∧
  (∀ (p : Port) (c d : Bool) (s : State), s.fault = false → (s.port p).lastClk = none →
    exec (.sig p c d) s = .next (s.setPort p { s.port p with lastClk := some c })) ∧
  (∀ (p : Port) (s t : State), exec .reset s = .next t → (t.port p).lastClk = none) ∧
  (∀ p : Port, (State.reset.port p).lastClk = none)

/-- R73: a SIG that is not an active edge only stores the clock level, for every `EDGE`, and for the machine's
falling edge (the value of `EDGE` is the spec's choice, notes/assumptions/7.md). -/
def Obligations.SigWithoutActiveEdge : Prop :=
  (∀ (cfg : Config) (p : Port) (c d : Bool) (s : State), cfg.WellFormed → s.fault = false →
    active cfg.edge (s.port p).lastClk c = false →
    sigWith cfg p c d s = .next (s.setPort p { s.port p with lastClk := some c })) ∧
  (∀ (p : Port) (c d : Bool) (s : State), s.fault = false →
    ¬ ((s.port p).lastClk = some true ∧ c = false) →
    exec (.sig p c d) s = .next (s.setPort p { s.port p with lastClk := some c }))

/-- R74 and R75: an active edge with the cursor at 0..23 shifts the data level in and counts it, and at the 24th
bit captures the packet and restarts the count, whether or not a packet was waiting; for every `EDGE`, and for the
machine's falling edge (notes/assumptions/7.md). -/
def Obligations.ActiveEdgeShiftsAndCaptures : Prop :=
  (∀ (cfg : Config) (p : Port) (c d : Bool) (s : State), cfg.WellFormed → s.fault = false →
    active cfg.edge (s.port p).lastClk c = true → (s.port p).cnt.toNat ≤ 23 →
    sigWith cfg p c d s = .next (s.setPort p (afterActiveEdge (s.port p) c d))) ∧
  (∀ (p : Port) (d : Bool) (s : State), s.fault = false → (s.port p).lastClk = some true →
    (s.port p).cnt.toNat ≤ 23 →
    exec (.sig p false d) s = .next (s.setPort p (afterActiveEdge (s.port p) false d)))

/-- R76: an active edge that finds the cursor at 24 or more only clears the accumulator and the cursor (for every
`EDGE`, and for the machine's falling edge), and no step brings a cursor there. -/
def Obligations.OverflowRecovery : Prop :=
  (∀ (cfg : Config) (p : Port) (c d : Bool) (s : State), cfg.WellFormed → s.fault = false →
    active cfg.edge (s.port p).lastClk c = true → 24 ≤ (s.port p).cnt.toNat →
    sigWith cfg p c d s = .next (s.setPort p
      { s.port p with lastClk := some c, acc := 0x000000#24, cnt := 0#5 })) ∧
  (∀ (p : Port) (d : Bool) (s : State), s.fault = false → (s.port p).lastClk = some true →
    24 ≤ (s.port p).cnt.toNat →
    exec (.sig p false d) s = .next (s.setPort p
      { s.port p with lastClk := some false, acc := 0x000000#24, cnt := 0#5 })) ∧
  (∀ (p : Port) (s t : State), (s.port p).cnt.toNat ≤ 23 → step s = .next t → (t.port p).cnt.toNat ≤ 23)

/-- R78, which the spec infers from R77 ("The two ports' samplers are independent."): SIG writes only its own
port's clock level, accumulator, cursor, packet and flag; what it writes there depends on those five alone; and
SIGs of the two ports commute. -/
def Obligations.SamplersAreIndependent : Prop :=
  (∀ (p : Port) (c d : Bool) (s t : State), exec (.sig p c d) s = .next t →
    t.port (otherPort p) = s.port (otherPort p) ∧ (t.port p).prev = (s.port p).prev ∧
    t.out = s.out ∧ t.fault = s.fault ∧ t.refused = s.refused ∧ t.pending = s.pending) ∧
  (∀ (p : Port) (c d : Bool) (s s' t t' : State),
    exec (.sig p c d) s = .next t → exec (.sig p c d) s' = .next t' →
    { s.port p with prev := (s'.port p).prev } = s'.port p →
    { t.port p with prev := (t'.port p).prev } = t'.port p) ∧
  (∀ (c d c' d' : Bool) (s : State), s.fault = false → ∃ a b t,
    exec (.sig .js1 c d) s = .next a ∧ exec (.sig .js2 c' d') a = .next t ∧
    exec (.sig .js2 c' d') s = .next b ∧ exec (.sig .js1 c d) b = .next t)

/-- R79, which the spec infers from R74 and R75: from a cursor of 0, a list of SIGs of one port with exactly 24
active edges among them captures exactly the packet of the bits sampled at those edges; with fewer than 24 it
captures nothing and the cursor says how many bits wait. The other port and everything else are as before. -/
def Obligations.TwentyFourEdgesMakeOnePacket : Prop :=
  ∀ (p : Port) (sigs : List (Bool × Bool)) (rest : List StimWord) (s : State), s.fault = false →
    (s.port p).cnt = 0#5 → s.pending = sigWords p sigs ++ rest →
    ∃ ps : PortState,
      runSteps sigs.length s = .next ((s.setPending rest).setPort p ps) ∧
      ps.prev = (s.port p).prev ∧
      ((sampledBits .falling (s.port p).lastClk sigs).length = 24 →
        ps.pkt = packetOfWire (sampledBits .falling (s.port p).lastClk sigs) ∧
        ps.ready = true ∧ ps.cnt = 0#5 ∧ ps.acc = 0#24) ∧
      ((sampledBits .falling (s.port p).lastClk sigs).length < 24 →
        ps.pkt = (s.port p).pkt ∧ ps.ready = (s.port p).ready ∧
        ps.cnt.toNat = (sampledBits .falling (s.port p).lastClk sigs).length)

/-- R51, R66: `PACKET p, v` from a cursor of 0 hands over exactly `v`, whatever the clock level was. -/
def Obligations.PacketStimuliDeliverThePacket : Prop :=
  ∀ (p : Port) (v : Packet) (rest : List StimWord) (s : State), s.fault = false → (s.port p).cnt = 0#5 →
    s.pending = packetWords p v ++ rest →
    runSteps 48 s = .next ((s.setPending rest).setPort p
      { s.port p with
        acc := 0#24, cnt := 0#5, lastClk := some false, pkt := v, ready := true })

/-! ## The Frame Validator and Bit Mapper -/

/-- R90: the check passes exactly when every framing bit equals its constant; it reads no data bit; one flipped
framing bit fails; and the spec's examples. The example (`valid(0x00083E)` holds, `valid(0x00803F)` fails) is the
spec's inference from R90 and R52, and the constants are the spec's own, from general knowledge
(notes/assumptions/7.md). -/
def Obligations.FramingCheckComparesFramingBits : Prop :=
  (∀ (cfg : Config) (P : Packet), cfg.WellFormed →
    (validPacket cfg P = true ↔ ∀ n, cfg.frameMask.getLsbD n = true → P.getLsbD n = cfg.frameValue.getLsbD n)) ∧
  (∀ (cfg : Config) (P D : Packet), D &&& cfg.frameMask = 0#24 → validPacket cfg (P ^^^ D) = validPacket cfg P) ∧
  (∀ (cfg : Config) (P : Packet) (n : Nat), cfg.frameMask.getLsbD n = true → validPacket cfg P = true →
    validPacket cfg (P ^^^ BitVec.twoPow 24 n) = false) ∧
  configuration.frameMask = 0x08427F#24 ∧ configuration.frameValue = 0x00003E#24 ∧
  validPacket configuration 0x000000#24 = false ∧ validPacket configuration 0xFFFFFF#24 = false ∧
  validPacket configuration 0x00083E#24 = true ∧ validPacket configuration 0x00803F#24 = false

/-- R91: bit `i` of the bitmap is the packet bit at `DATA_POS[i]`; the framing bits do not reach it; and the
spec's values. The example (`map(0x0080BE) = 0x0041`) is the spec's inference from R91 and R53, and `DATA_POS` and
the framing constants are the spec's choice (notes/assumptions/7.md). -/
def Obligations.MapperSelectsDataBits : Prop :=
  (∀ (cfg : Config) (P : Packet) (b : Button),
    (mapPacket cfg P).getLsbD b.index = P.getLsbD (cfg.dataPos b)) ∧
  (∀ (cfg : Config) (P : Packet), cfg.WellFormed → mapPacket cfg (P ^^^ cfg.frameMask) = mapPacket cfg P) ∧
  Button.all.map configuration.dataPos = [7, 8, 10, 11, 12, 13, 15, 16, 17, 18, 20, 21, 22, 23] ∧
  mapPacket configuration (0xF7BD80#24 ||| configuration.frameValue) = 0x3FFF#14 ∧
  mapPacket configuration configuration.frameValue = 0x0000#14 ∧
  mapPacket configuration 0x0080BE#24 = 0x0041#14

/-- R51, where the spec infers it from R52, R90 and R91 ("it then behaves identically on every wire stream"): the
LSB-first reading with every position reversed behaves as the machine does: from a state and its reversed form,
each stimulus gives a state and its reversed form, with the same `OUT`. Both readings take the same `EVENT_ORDER`,
as the model's form of the free event order lets them (notes/assumptions/6.md); R103 leaves the order open. -/
def Obligations.BitOrdersAreEquivalent : Prop :=
  ∀ (cfg : Config), cfg.WellFormed → ∀ s : State,
    (∀ p c d, sigState .lsbFirst (reverseConfig cfg) p c d (reverseState s) =
      reverseState (sigState .msbFirst cfg p c d s)) ∧
    (∀ p, pollState (reverseConfig cfg) p (reverseState s) = reverseState (pollState cfg p s)) ∧
    resetState (reverseConfig cfg) (reverseState s) = reverseState (resetState cfg s) ∧
    (reverseState s).out = s.out ∧ (reverseConfig cfg).WellFormed

/-! ## The Keymap Resolver and the consumer: POLL -/

/-- R100: the three results of change detection, lane by lane, and the spec's corner cases and example. That
`pressed & released = 0` and `pressed | released = changed` is the spec's inference from the rule itself. -/
def Obligations.ChangeDetectionLanes : Prop :=
  (∀ new prev : Bitmap,
    (∀ i < 14,
      (changedButtons new prev).getLsbD i = (new.getLsbD i != prev.getLsbD i) ∧
      (pressedButtons new prev).getLsbD i = (new.getLsbD i && !prev.getLsbD i) ∧
      (releasedButtons new prev).getLsbD i = (!new.getLsbD i && prev.getLsbD i)) ∧
    pressedButtons new prev &&& releasedButtons new prev = 0#14 ∧
    pressedButtons new prev ||| releasedButtons new prev = changedButtons new prev) ∧
  (∀ b : Bitmap, changedButtons b b = 0#14 ∧ pressedButtons b 0#14 = b ∧ releasedButtons b 0#14 = 0#14 ∧
    releasedButtons 0#14 b = b) ∧
  changedButtons 0x0040#14 0x0041#14 = 0x0001#14 ∧ pressedButtons 0x0040#14 0x0041#14 = 0x0000#14 ∧
  releasedButtons 0x0040#14 0x0041#14 = 0x0001#14

/-- R101: a port resolves a button in its own keymap, never in the other port's, and always to a symbol when the
keymap check passed; the spec's example. -/
def Obligations.ResolveUsesTheOwnKeymap : Prop :=
  (∀ (cfg : Config) (b : Button), configOk cfg = true → ∃ sym1 sym2,
    resolve cfg .js1 b = some sym1 ∧ { button := b.index, value := .symbol sym1 } ∈ cfg.keymap1 ∧
    resolve cfg .js2 b = some sym2 ∧ { button := b.index, value := .symbol sym2 } ∈ cfg.keymap2) ∧
  (∀ (cfg : Config) (km : List KeymapEntry) (b : Button),
    resolve { cfg with keymap2 := km } .js1 b = resolve cfg .js1 b ∧
    resolve { cfg with keymap1 := km } .js2 b = resolve cfg .js2 b) ∧
  resolve configuration .js2 .left = some charA

/-- R107: the three keymap entries that the scenarios fix. -/
def Obligations.ScenarioKeymapEntries : Prop :=
  resolve configuration .js1 .up = some (.named .upArrow) ∧
  resolve configuration .js2 .left = some (.char 0x61#8 rfl) ∧
  resolve configuration .js2 .red = some (.char 0x72#8 rfl)

/-- R102: one event for each changed button, in ascending index, pressed where the new bit is set and released
where it is not; their number is `popcount(NEW ^ PREV)`; the spec's example. -/
def Obligations.EventsAreTheSymmetricDifference : Prop :=
  (∀ (cfg : Config) (p : Port), configOk cfg = true → ∃ sym : Button → Symbol,
    (∀ b, resolve cfg p b = some (sym b)) ∧
    ∀ new prev : Bitmap,
      events cfg p new prev =
        (Button.all.filter fun b => (new ^^^ prev).getLsbD b.index).map
          (fun b => { sym := sym b, dir := if new.getLsbD b.index then .pressed else .released }) ∧
      (events cfg p new prev).length = popcount (new ^^^ prev)) ∧
  events configuration .js1 0x0008#14 0x0000#14 = [{ sym := .named .upArrow, dir := .pressed }]

/-- R103: the order of one packet's events is open: what the order parameter can produce is exactly the
permutations of the list of R102. -/
def Obligations.EventOrderAdmitsEveryPermutation : Prop :=
  (∀ (cfg : Config) (n : Nat) (p : Port) (new prev : Bitmap),
    (orderedEvents cfg n p new prev).Perm (events cfg p new prev)) ∧
  (∀ (cfg : Config) (n : Nat) (p : Port) (new prev : Bitmap) (l : List Event),
    l.Perm (events cfg p new prev) →
    ∃ order, orderedEvents { cfg with eventOrder := order } n p new prev = l)

/-- R108: POLL, in each of its four cases. -/
def Obligations.PollFollowsItsRule : Prop :=
  ∀ (p : Port) (s : State),
    (s.fault = true → exec (.poll p) s = .fault .configError) ∧
    (s.fault = false → (s.port p).ready = false → exec (.poll p) s = .next s) ∧
    (s.fault = false → (s.port p).ready = true → validPacket configuration (s.port p).pkt = false →
      exec (.poll p) s = .next (s.setPort p { s.port p with ready := false })) ∧
    (s.fault = false → (s.port p).ready = true → validPacket configuration (s.port p).pkt = true →
      ∃ evs : List Event,
        evs.Perm (events configuration p (mapPacket configuration (s.port p).pkt) (s.port p).prev) ∧
        exec (.poll p) s = .next
          ((s.setPort p
              { s.port p with ready := false, prev := mapPacket configuration (s.port p).pkt }).setOut (s.out ++ evs)))

/-- R45 and R108, for a POLL that directly follows a POLL of the same port: the second does nothing. (R45 in full,
with other stimuli between, is `Obligations.PacketIsTakenAtMostOnce`.) -/
def Obligations.SecondPollDoesNothing : Prop :=
  ∀ (p : Port) (s t : State), exec (.poll p) s = .next t → exec (.poll p) t = .next t

/-- R45, which the spec infers from R108 ("Two POLLs of port p with no capture between them process the packet at
most once."): after a POLL of `p`, and any steps none of which is a capture on `p`, a POLL of `p` does nothing. -/
def Obligations.PacketIsTakenAtMostOnce : Prop :=
  ∀ (p : Port) (s t u : State), exec (.poll p) s = .next t →
    Relation.ReflTransGen (stepWithoutCapture p) t u → exec (.poll p) u = .next u

/-- R95, which the spec infers from R92 and R108 ("A packet that fails the check changes nothing observable."):
packets that fail the check, any number of them in a row, each one polled, emit no event and leave the
bitmap of the port as it was. -/
def Obligations.InvalidPacketsEmitNothing : Prop :=
  (∀ (p : Port) (s : State), s.fault = false → validPacket configuration (s.port p).pkt = false →
    ∃ t, exec (.poll p) s = .next t ∧ t.out = s.out ∧ ∀ q, (t.port q).prev = (s.port q).prev) ∧
  (∀ (p : Port) (vs : List Packet) (rest : List StimWord) (s : State), s.fault = false →
    (s.port p).cnt = 0#5 → (∀ v ∈ vs, validPacket configuration v = false) →
    s.pending = polledWords p vs ++ rest →
    ∃ t, runSteps (49 * vs.length) s = .next t ∧ t.pending = rest ∧ t.out = s.out ∧
      ∀ q, (t.port q).prev = (s.port q).prev)

/-- R104, which the spec infers from R100, R102 and R108 ("When a bitmap is unchanged, no event is emitted"): no
event where the bitmap is unchanged, however often it is decoded. -/
def Obligations.UnchangedBitmapEmitsNothing : Prop :=
  (∀ (cfg : Config) (p : Port) (b : Bitmap), events cfg p b b = []) ∧
  (∀ (p : Port) (s : State), s.fault = false → (s.port p).ready = true →
    validPacket configuration (s.port p).pkt = true →
    mapPacket configuration (s.port p).pkt = (s.port p).prev →
    exec (.poll p) s = .next (s.setPort p { s.port p with ready := false }))

/-- R109, which the spec infers from R100, R102, R108 and R31 ("The first packet after reset is diffed against the
empty bitmap."): after RESET the previous bitmap is empty; a valid packet that finds it so emits one press event
for each button held, and none for an empty packet. -/
def Obligations.FirstPacketPressesHeldButtons : Prop :=
  (∀ (p : Port) (s t : State), exec .reset s = .next t → (t.port p).prev = 0x0000#14) ∧
  (∀ p : Port, (State.reset.port p).prev = 0x0000#14) ∧
  (∀ (p : Port) (s : State), s.fault = false → (s.port p).ready = true → (s.port p).prev = 0x0000#14 →
    validPacket configuration (s.port p).pkt = true →
    ∃ (t : State) (evs : List Event) (sym : Button → Symbol),
      exec (.poll p) s = .next t ∧ t.out = s.out ++ evs ∧ (∀ b, resolve configuration p b = some (sym b)) ∧
      evs.Perm ((Button.all.filter fun b => (mapPacket configuration (s.port p).pkt).getLsbD b.index).map
        fun b => { sym := sym b, dir := .pressed }) ∧
      (mapPacket configuration (s.port p).pkt = 0x0000#14 → t.out = s.out))

/-- The decoder refines its specification: whatever packets are sent on a port, each one polled, `OUT` grows by
the events of each packet in turn, in some order within a packet, and the port ends with the bitmap of the last
valid packet (R94, R102, R108, R111). -/
def Obligations.PacketStreamRefinesBitmapDiff : Prop :=
  ∀ (p : Port) (vs : List Packet) (rest : List StimWord) (s : State), s.fault = false →
    (s.port p).cnt = 0#5 → s.pending = polledWords p vs ++ rest →
    ∃ (t : State) (chunks : List (List Event)),
      runSteps (49 * vs.length) s = .next t ∧
      List.Forall₂ List.Perm chunks (eventsOfPackets p (s.port p).prev vs) ∧
      t.out = s.out ++ chunks.flatten ∧
      (t.port p).prev = vs.foldl bitmapAfter (s.port p).prev ∧
      t.port (otherPort p) = s.port (otherPort p) ∧ t.pending = rest

/-- R145, which the spec infers from R75 and R108 ("Otherwise the earlier packet is overwritten and never
decoded"): a packet that is overwritten before a POLL leaves no trace: the run is as if only the second packet had
been sent. That the events of that packet stand in the same order in both runs rests on the model's choice of the
free event order (notes/assumptions/6.md); R103 leaves the order open. -/
def Obligations.OverwrittenPacketLeavesNoTrace : Prop :=
  ∀ (p : Port) (v v' : Packet) (rest : List StimWord) (s : State), s.fault = false → (s.port p).cnt = 0#5 →
    ∃ t, runSteps 97 (s.setPending (packetWords p v ++ packetWords p v' ++ encode (.poll p) :: rest)) = .next t ∧
      runSteps 49 (s.setPending (packetWords p v' ++ encode (.poll p) :: rest)) = .next t

/-! ## Reset, configuration and errors -/

/-- R31: the value of every element at power-on and after RESET. -/
def Obligations.ResetValues : Prop :=
  (∀ p : Port, State.reset.port p =
    { acc := 0x000000#24, cnt := 0#5, lastClk := none, pkt := 0x000000#24, ready := false, prev := 0x0000#14 }) ∧
  State.reset.out = [] ∧ State.reset.refused = false ∧
  State.reset.fault = !configOk configuration ∧
  (∀ s t : State, exec .reset s = .next t →
    (∀ p : Port, t.port p =
      { acc := 0x000000#24, cnt := 0#5, lastClk := none, pkt := 0x000000#24, ready := false, prev := 0x0000#14 }) ∧
    t.out = s.out ∧ t.refused = s.refused ∧ t.fault = !configOk configuration)

/-- R140: RESET under every well-formed configuration, and the machine's own. That `FAULT` is 0 after RESET under
the machine's own configuration rests on the model's choice that the open keymap entries are symbols by type
(notes/assumptions/5.md); R140 says `config_ok ? 0 : 1`, which the first clause states. -/
def Obligations.ResetFollowsItsRule : Prop :=
  (∀ (cfg : Config) (s : State), cfg.WellFormed →
    resetWith cfg s =
      if s.fault then .fault .configError
      else .next
        { js1 := { acc := 0x000000#24, cnt := 0#5, lastClk := none, pkt := 0x000000#24, ready := false, prev := 0x0000#14 }
          js2 := { acc := 0x000000#24, cnt := 0#5, lastClk := none, pkt := 0x000000#24, ready := false, prev := 0x0000#14 }
          out := s.out
          fault := !configOk cfg
          refused := s.refused
          pending := s.pending }) ∧
  (∀ s : State, s.fault = false → exec .reset s = .next
    { js1 := { acc := 0x000000#24, cnt := 0#5, lastClk := none, pkt := 0x000000#24, ready := false, prev := 0x0000#14 }
      js2 := { acc := 0x000000#24, cnt := 0#5, lastClk := none, pkt := 0x000000#24, ready := false, prev := 0x0000#14 }
      out := s.out
      fault := false
      refused := s.refused
      pending := s.pending })

/-- R141: power-on is RESET of a state with `FAULT = 0`, `REFUSED = 0` and an empty `OUT`. -/
def Obligations.PowerOnIsReset : Prop :=
  ∀ s : State, s.fault = false → s.refused = false → s.out = [] →
    exec .reset s = .next (State.reset.setPending s.pending)

/-- R147, which the spec infers from R140 and R108 ("Press and release events are not balanced across a RESET."):
after a RESET while a button is held, the next valid packet with that button held presses it again, and
the packet emits no release. -/
def Obligations.HeldButtonPressesAgainAfterReset : Prop :=
  ∀ (p : Port) (b : Button) (s t u : State), exec .reset s = .next t →
    u.fault = false → (u.port p).prev = (t.port p).prev → (u.port p).ready = true →
    validPacket configuration (u.port p).pkt = true →
    (mapPacket configuration (u.port p).pkt).getLsbD b.index = true →
    t.out = s.out ∧ ∃ (v : State) (evs : List Event) (sym : Symbol),
      exec (.poll p) u = .next v ∧ v.out = u.out ++ evs ∧ resolve configuration p b = some sym ∧
      { sym := sym, dir := .pressed } ∈ evs ∧ ∀ e ∈ evs, e.dir = .pressed

/-- R9: what a well-formed configuration is, that the defaults are one, and that any other is refused by name.
That the defaults meet the conditions is the spec's inference from R8 ("The default values meet all five"). That
every stimulus refuses, by the first condition that fails, and does so even where `FAULT = 1`, is the model's
choice (notes/assumptions/9.md). -/
def Obligations.OnlyWellFormedConfigurationsRun : Prop :=
  (∀ cfg : Config, cfg.WellFormed ↔
    cfg.frameValue &&& ~~~cfg.frameMask = 0#24 ∧
    (∀ b, cfg.dataPos b < 24) ∧ (∀ a b, cfg.dataPos a = cfg.dataPos b → a = b) ∧
    (∀ b, cfg.frameMask.getLsbD (cfg.dataPos b) = false) ∧
    popcount cfg.frameMask + 14 = 24) ∧
  configuration.WellFormed ∧ popcount configuration.frameMask = 10 ∧
  configuration.frameMask &&& 0xF7BD80#24 = 0#24 ∧ configuration.frameMask ||| 0xF7BD80#24 = 0xFFFFFF#24 ∧
  (∀ (cfg : Config) (why : ConfigDefect) (s : State) (p : Port) (c d : Bool), cfg.defect? = some why →
    sigWith cfg p c d s = .refused (.illFormedConfig why) ∧
    pollWith cfg p s = .refused (.illFormedConfig why) ∧
    resetWith cfg s = .refused (.illFormedConfig why))

/-- R110 and R123: what the keymap check tests, that it is made at power-on and at every RESET, and that CORE
never starts when it fails. That a reserved word and a wait have no step from `FAULT = 1` either is the model's
reading of R123 (notes/assumptions/3.md). -/
def Obligations.KeymapCheckTestsBothKeymaps : Prop :=
  (∀ cfg : Config, configOk cfg = true ↔ KeymapComplete cfg.keymap1 ∧ KeymapComplete cfg.keymap2) ∧
  State.reset.fault = !configOk configuration ∧
  (∀ (cfg : Config) (s t : State), resetWith cfg s = .next t → t.fault = !configOk cfg) ∧
  (∀ s : State, s.fault = true → step s = .fault .configError)

/-- R122 and R123: a keymap that fails the check gives a reset state with `FAULT = 1` and every port field at its
reset value, from which no stimulus has a step; `OUT` gets nothing. That a reserved word and a wait have no step
there either is the model's reading (notes/assumptions/3.md). -/
def Obligations.ConfigErrorIsFatal : Prop :=
  ∀ (cfg : Config) (s : State), cfg.WellFormed → configOk cfg = false → s.fault = false →
    ∃ t, resetWith cfg s = .next t ∧ t.fault = true ∧ t.out = s.out ∧
      (∀ p, t.port p = PortState.reset) ∧
      ∀ (p : Port) (c d : Bool),
        sigWith cfg p c d t = .fault .configError ∧ pollWith cfg p t = .fault .configError ∧
        resetWith cfg t = .fault .configError ∧ step t = .fault .configError

/-- R123: exactly the states with `FAULT = 1` have no step, whatever the stimulus, RESET included. That a reserved
word and a wait have no step there either is the model's reading (notes/assumptions/3.md). -/
def Obligations.FaultStatesHaveNoStep : Prop :=
  (∀ s : State, s.fault = true → step s = .fault .configError ∧ ∀ i, exec i s = .fault .configError) ∧
  (∀ (s : State) (r : Fault), step s = .fault r → s.fault = true) ∧
  (∀ (s : State) (i : Instr) (r : Fault), exec i s = .fault r → s.fault = true)

/-- R120, R121, R127: the error codes; a SIG can meet only code 2, a POLL only code 1 and RESET only code 3; what
codes 1 and 2 do; and no legal state meets code 2. -/
def Obligations.ErrorsHaveTheirEffects : Prop :=
  errorCode .framingMismatch = 1 ∧ errorCode .cursorOverflow = 2 ∧ errorCode .configError = 3 ∧
  (∀ (cfg : Config) (i : Instr) (s : State) (e : ErrorCause), errorMet cfg i s = some e →
    (match i with
      | .sig _ _ _ => e = .cursorOverflow
      | .poll _ => e = .framingMismatch
      | .reset => e = .configError)) ∧
  (∀ (p : Port) (s : State), s.fault = false → errorMet configuration (.poll p) s = some .framingMismatch →
    exec (.poll p) s = .next (s.setPort p { s.port p with ready := false })) ∧
  (∀ (p : Port) (c d : Bool) (s : State), s.fault = false →
    errorMet configuration (.sig p c d) s = some .cursorOverflow →
    exec (.sig p c d) s = .next (s.setPort p
      { s.port p with lastClk := some c, acc := 0#24, cnt := 0#5 })) ∧
  (∀ (i : Instr) (s : State), s.Legal → errorMet configuration i s ≠ some .cursorOverflow)

/-! ## The machine as a whole -/

/-- A step applies the stimulus its next word spells, to the state without that word (R46, R60; the queue of
words is the model's, notes/assumptions/1.md). -/
def Obligations.StepRunsTheDecodedStimulus : Prop :=
  ∀ (s : State) (w : StimWord) (rest : List StimWord) (i : Instr),
    s.pending = w :: rest → decode w = .stimulus i → i.wellFormed = true →
    step s = exec i (s.setPending rest)

/-- With no stimulus issued, a step leaves the state as it is (R133; that a step answers at all then is the
model's choice, notes/assumptions/1.md). -/
def Obligations.WaitingHoldsTheState : Prop :=
  ∀ s : State, s.fault = false → s.pending = [] → step s = .next s

/-- R48, forward progress (that a reserved word and a wait answer a next state is the model's reading,
notes/assumptions/1.md and 2.md): without a configuration fault every state has a step, and no step is refused. -/
def Obligations.EveryFaultFreeStateHasAStep : Prop :=
  (∀ s : State, s.fault = false → ∃ t, step s = .next t) ∧
  (∀ (s : State) (i : Instr), s.fault = false → ∃ t, exec i s = .next t) ∧
  (∀ (s : State) (r : Refusal), step s ≠ .refused r)

/-- R32, the read and write sets, which the spec infers from R77, R108 and R140: a stimulus changes no field
outside its write set, and what it writes depends only on its read set: two states that agree there get equal
values in each written field, or keep their own; `OUT` gets the same events up to order. -/
def Obligations.StimuliKeepToTheirFootprint : Prop :=
  (∀ (i : Instr) (s t : State), exec i s = .next t → t.pending = s.pending ∧
    ∀ f, f ∉ writeSet i → sameField f t s) ∧
  (∀ (i : Instr) (s s' t t' : State), exec i s = .next t → exec i s' = .next t' →
    (∀ f ∈ readSet i, sameField f s s') →
    (∀ f ∈ writeSet i, f ≠ .out → sameField f t t' ∨ (sameField f t s ∧ sameField f t' s')) ∧
    ∃ evs evs' : List Event, t.out = s.out ++ evs ∧ t'.out = s'.out ++ evs' ∧ evs.Perm evs')

/-- R25: `READY[p]` is set only by a capture on port `p`, cleared only by a POLL of `p` that finds it set and by
RESET, and a capture while it is set leaves it set. -/
def Obligations.ReadyFlagDiscipline : Prop :=
  ∀ (i : Instr) (s t : State) (p : Port), exec i s = .next t →
    ((s.port p).ready = false → (t.port p).ready = true → captures i s p (t.port p).pkt) ∧
    ((s.port p).ready = true → (t.port p).ready = false → i = .poll p ∨ i = .reset) ∧
    (∀ v, captures i s p v → (t.port p).ready = true) ∧
    ((s.port p).ready = true → i = .poll p → (t.port p).ready = false) ∧
    (i = .reset → (t.port p).ready = false)

/-- R47: the packet a POLL can take is the one the latest capture wrote: the packet buffer changes only at a
capture, which writes the 24 bits collected and sets the flag in the same step, and at RESET, which clears it. -/
def Obligations.PacketBufferChangesOnlyAtCapture : Prop :=
  (∀ (i : Instr) (s t : State) (p : Port), exec i s = .next t → (t.port p).pkt ≠ (s.port p).pkt →
    (captures i s p (t.port p).pkt ∧ (t.port p).ready = true) ∨
    (i = .reset ∧ (t.port p).ready = false)) ∧
  (∀ (i : Instr) (s t : State) (p : Port) (v : Packet), exec i s = .next t → captures i s p v →
    (t.port p).pkt = v ∧ (t.port p).ready = true)

/-- R26: `PREV[p]` changes only when a POLL of `p` takes a packet that passes the check, and then it is that
packet's bitmap, or at RESET, and then it is empty. -/
def Obligations.PrevIsTheLastValidBitmap : Prop :=
  (∀ (i : Instr) (s t : State) (p : Port), exec i s = .next t → (t.port p).prev ≠ (s.port p).prev →
    (i = .poll p ∧ (s.port p).ready = true ∧ validPacket configuration (s.port p).pkt = true ∧
      (t.port p).prev = mapPacket configuration (s.port p).pkt) ∨
    (i = .reset ∧ (t.port p).prev = 0x0000#14)) ∧
  (∀ (s t : State) (p : Port), exec (.poll p) s = .next t → (s.port p).ready = true →
    validPacket configuration (s.port p).pkt = true →
    (t.port p).prev = mapPacket configuration (s.port p).pkt)

/-- R27, R111: `OUT` only grows at its end, and only by POLL, by the events of that one POLL together; no stimulus
writes `REFUSED`, and no step clears it. -/
def Obligations.OutputStreamIsAppendOnly : Prop :=
  (∀ (i : Instr) (s t : State), exec i s = .next t →
    (∃ evs, t.out = s.out ++ evs ∧ (evs ≠ [] → ∃ p, i = .poll p ∧
      evs.Perm (events configuration p (mapPacket configuration (s.port p).pkt) (s.port p).prev))) ∧
    t.refused = s.refused) ∧
  (∀ s t : State, step s = .next t → s.out <+: t.out ∧ (s.refused = true → t.refused = true))

/-- Every step keeps a legal state legal: cursors 0..23, no more accumulator bits than the cursor counts, a port
untouched while its clock level is unknown, and no configuration fault (R22, R31, R72, R80). -/
def Obligations.StepKeepsLegalStates : Prop :=
  ∀ s t : State, s.Legal → step s = .next t → t.Legal

/-- The state after power-on is legal. -/
def Obligations.ResetStateIsLegal : Prop := State.reset.Legal

/-- R80, which the spec infers from R74 to R76 and R140: in a legal state the shift of R74 drops no set bit, and
the count does not wrap. -/
def Obligations.LegalShiftLosesNothing : Prop :=
  ∀ (s : State) (p : Port) (d : Bool), s.Legal →
    (s.port p).acc.getLsbD 23 = false ∧
    (shiftIn .msbFirst (s.port p).acc d).toNat = 2 * (s.port p).acc.toNat + (if d then 1 else 0) ∧
    (BitVec.ofNat 5 ((s.port p).cnt.toNat + 1)).toNat = (s.port p).cnt.toNat + 1

/-- R23, which the spec infers from R22, R74 and R75, and R31: what CORE never uses cannot be observed: two states
that differ at most in accumulator bits the cursor does not count, and in a packet buffer that holds no packet,
stay so under every step, with the same `OUT`. That the events stand in the same order in both rests on the
model's choice of the free event order (notes/assumptions/6.md); R103 leaves the order open. -/
def Obligations.UnusedBitsAreUnobservable : Prop :=
  ∀ s s' t : State, s.SameUpToUnused s' → step s = .next t →
    ∃ t', step s' = .next t' ∧ t.SameUpToUnused t'
end

