-- ==== Sys2Proof/Laws/Bits.lean ====
section
/-! SUPPORT. The small lemmas of `gather` and of the button list. -/

namespace Sys2Proof.Laws

open Sys2Proof.Machine

/-- A gathered word read bit by bit. -/
@[simp] theorem gather_getLsbD (n : Nat) (f : Nat → Bool) (i : Nat) :
    (gather n f).getLsbD i = (decide (i < n) && f i) := by
  induction n with
  | zero => simp [gather]
  | succ n ih =>
    simp only [gather, BitVec.getLsbD_cons, ih]
    by_cases h : i = n
    · subst h; simp
    · simp only [h, if_false]
      by_cases h' : i < n
      · simp [h', Nat.lt_succ_of_lt h']
      · have : ¬ i < n + 1 := by omega
        simp [h', this]

/-- Every button stands in the list of buttons. -/
@[simp] theorem button_mem_all (b : Button) : b ∈ Button.all := by
  cases b <;> decide

/-- A button index is a bit of a bitmap. -/
theorem button_index_lt (b : Button) : b.index < 14 := by
  cases b <;> decide

/-- Two buttons with one index are one button. -/
theorem button_index_injective {a b : Button} (h : a.index = b.index) : a = b := by
  cases a <;> cases b <;> first | rfl | exact absurd h (by decide)

/-- The list of buttons is in the order of their indexes. -/
theorem button_all_index (b : Button) : Button.all[b.index]? = some b := by
  cases b <;> rfl

end Sys2Proof.Laws
end

