-- ==== Sys2Proof/Laws/State.lean ====
section
/-! SUPPORT. What each update of the state leaves in each field. -/

namespace Sys2Proof.Laws

open Sys2Proof.Machine

section PortUpdates

variable (ps : PortState) (v : Packet)

@[simp] theorem raiseReady_acc : ps.raiseReady.acc = ps.acc := rfl
@[simp] theorem raiseReady_cnt : ps.raiseReady.cnt = ps.cnt := rfl
@[simp] theorem raiseReady_lastClk : ps.raiseReady.lastClk = ps.lastClk := rfl
@[simp] theorem raiseReady_pkt : ps.raiseReady.pkt = ps.pkt := rfl
@[simp] theorem raiseReady_ready : ps.raiseReady.ready = true := rfl
@[simp] theorem raiseReady_prev : ps.raiseReady.prev = ps.prev := rfl

@[simp] theorem lowerReady_acc : ps.lowerReady.acc = ps.acc := rfl
@[simp] theorem lowerReady_cnt : ps.lowerReady.cnt = ps.cnt := rfl
@[simp] theorem lowerReady_lastClk : ps.lowerReady.lastClk = ps.lastClk := rfl
@[simp] theorem lowerReady_pkt : ps.lowerReady.pkt = ps.pkt := rfl
@[simp] theorem lowerReady_ready : ps.lowerReady.ready = false := rfl
@[simp] theorem lowerReady_prev : ps.lowerReady.prev = ps.prev := rfl

@[simp] theorem capture_acc : (ps.capture v).acc = 0#24 := rfl
@[simp] theorem capture_cnt : (ps.capture v).cnt = 0#5 := rfl
@[simp] theorem capture_lastClk : (ps.capture v).lastClk = ps.lastClk := rfl
@[simp] theorem capture_pkt : (ps.capture v).pkt = v := rfl
@[simp] theorem capture_ready : (ps.capture v).ready = true := rfl
@[simp] theorem capture_prev : (ps.capture v).prev = ps.prev := rfl

@[simp] theorem recover_acc : ps.recover.acc = 0#24 := rfl
@[simp] theorem recover_cnt : ps.recover.cnt = 0#5 := rfl
@[simp] theorem recover_lastClk : ps.recover.lastClk = ps.lastClk := rfl
@[simp] theorem recover_pkt : ps.recover.pkt = ps.pkt := rfl
@[simp] theorem recover_ready : ps.recover.ready = ps.ready := rfl
@[simp] theorem recover_prev : ps.recover.prev = ps.prev := rfl

end PortUpdates

section StateUpdates

variable (s : State) (p q : Port) (ps qs : PortState)

@[simp] theorem setPort_port : (s.setPort p ps).port p = ps := by cases p <;> rfl

theorem setPort_port_of_ne (h : q ≠ p) : (s.setPort p ps).port q = s.port q := by
  cases p <;> cases q <;> first | rfl | exact absurd rfl h

@[simp] theorem setPort_port_other : (s.setPort p ps).port (otherPort p) = s.port (otherPort p) := by
  cases p <;> rfl

@[simp] theorem setPort_out : (s.setPort p ps).out = s.out := by cases p <;> rfl
@[simp] theorem setPort_fault : (s.setPort p ps).fault = s.fault := by cases p <;> rfl
@[simp] theorem setPort_refused : (s.setPort p ps).refused = s.refused := by cases p <;> rfl
@[simp] theorem setPort_pending : (s.setPort p ps).pending = s.pending := by cases p <;> rfl
@[simp] theorem setPort_setPort : (s.setPort p ps).setPort p qs = s.setPort p qs := by cases p <;> rfl
@[simp] theorem setPort_self : s.setPort p (s.port p) = s := by cases p <;> rfl

theorem setPort_comm (h : p ≠ q) : (s.setPort p ps).setPort q qs = (s.setPort q qs).setPort p ps := by
  cases p <;> cases q <;> first | rfl | exact absurd rfl h

variable (out : List Event) (words : List StimWord)

@[simp] theorem setOut_port : (s.setOut out).port p = s.port p := by cases p <;> rfl
@[simp] theorem setOut_out : (s.setOut out).out = out := rfl
@[simp] theorem setOut_fault : (s.setOut out).fault = s.fault := rfl
@[simp] theorem setOut_refused : (s.setOut out).refused = s.refused := rfl
@[simp] theorem setOut_pending : (s.setOut out).pending = s.pending := rfl

@[simp] theorem setRefused_port : s.setRefused.port p = s.port p := by cases p <;> rfl
@[simp] theorem setRefused_out : s.setRefused.out = s.out := rfl
@[simp] theorem setRefused_fault : s.setRefused.fault = s.fault := rfl
@[simp] theorem setRefused_refused : s.setRefused.refused = true := rfl
@[simp] theorem setRefused_pending : s.setRefused.pending = s.pending := rfl

@[simp] theorem setPending_port : (s.setPending words).port p = s.port p := by cases p <;> rfl
@[simp] theorem setPending_out : (s.setPending words).out = s.out := rfl
@[simp] theorem setPending_fault : (s.setPending words).fault = s.fault := rfl
@[simp] theorem setPending_refused : (s.setPending words).refused = s.refused := rfl
@[simp] theorem setPending_pending : (s.setPending words).pending = words := rfl
@[simp] theorem setPending_setPending (l : List StimWord) :
    (s.setPending words).setPending l = s.setPending l := rfl
@[simp] theorem setPending_self : s.setPending s.pending = s := rfl

theorem setPort_setPending : (s.setPort p ps).setPending words = (s.setPending words).setPort p ps := by
  cases p <;> rfl

theorem setPort_setOut : (s.setPort p ps).setOut out = (s.setOut out).setPort p ps := by cases p <;> rfl

/-- Two states are equal when their ports and their other fields are. -/
theorem state_ext {s t : State} (hp : ∀ p, s.port p = t.port p) (ho : s.out = t.out) (hf : s.fault = t.fault)
    (hr : s.refused = t.refused) (hw : s.pending = t.pending) : s = t := by
  have h1 : s.js1 = t.js1 := hp .js1
  have h2 : s.js2 = t.js2 := hp .js2
  cases s
  cases t
  simp_all

@[simp] theorem otherPort_ne : otherPort p ≠ p := by cases p <;> decide

end StateUpdates

end Sys2Proof.Laws
end

