-- ==== Sys2Proof/Laws/Ops.lean ====
section
/-! SUPPORT. For each shared operation, once, everything it can do. -/

namespace Sys2Proof.Laws

open Sys2Proof.Machine

/-- The machine's configuration is well-formed (R9). -/
@[simp] theorem configuration_wellFormed : configuration.defect? = none := by decide

/-- A keymap made from a total map passes the check (R110). -/
@[simp] theorem keymapOf_ok (f : Button → Symbol) : keymapOk (keymapOf f) = true := by
  rfl

/-- The machine's configuration passes the keymap check (R110). -/
@[simp] theorem configuration_ok : configOk configuration = true := by
  simp [configOk, configuration]

/-- A total map's keymap resolves every button to its symbol (R101). -/
theorem find_keymapOf (f : Button → Symbol) (b : Button) :
    ((keymapOf f).find? fun e => e.button == b.index) = some { button := b.index, value := .symbol (f b) } := by
  cases b <;> rfl

/-- What the guard can answer. -/
theorem running_cases (cfg : Config) (s after : State) :
    (∃ why, cfg.defect? = some why ∧ running cfg s after = .refused (.illFormedConfig why)) ∨
    (cfg.defect? = none ∧ s.fault = true ∧ running cfg s after = .fault .configError) ∨
    (cfg.defect? = none ∧ s.fault = false ∧ running cfg s after = .next after) := by
  unfold running
  cases cfg.defect? <;> cases s.fault <;> simp

/-- The guard answers the state it is given when the configuration is well-formed and no fault stands. -/
@[simp] theorem running_next_iff (cfg : Config) (s after t : State) :
    running cfg s after = .next t ↔ cfg.defect? = none ∧ s.fault = false ∧ after = t := by
  unfold running
  cases cfg.defect? <;> cases s.fault <;> simp

/-- Under a well-formed configuration the fault mark stops a stimulus. -/
theorem running_fault {cfg : Config} (hc : cfg.defect? = none) {s : State} (hf : s.fault = true) (after : State) :
    running cfg s after = .fault .configError := by
  simp [running, hc, hf]

/-- Under a well-formed configuration and without a fault, a stimulus takes the state it computes. -/
theorem running_ok {cfg : Config} (hc : cfg.defect? = none) {s : State} (hf : s.fault = false) (after : State) :
    running cfg s after = .next after := by
  simp [running, hc, hf]

/-- A configuration that is not well-formed is refused by name. -/
theorem running_refused {cfg : Config} {why : ConfigDefect} (hc : cfg.defect? = some why) (s after : State) :
    running cfg s after = .refused (.illFormedConfig why) := by
  simp [running, hc]

/-- What SIG can answer: the next state and the one condition for it. -/
theorem execSig_next_iff (p : Port) (c d : Bool) (s t : State) :
    execSig p c d s = .next t ↔ s.fault = false ∧ sigState .msbFirst configuration p c d s = t := by
  simp [execSig, sigWith]

/-- What POLL can answer. -/
theorem execPoll_next_iff (p : Port) (s t : State) :
    execPoll p s = .next t ↔ s.fault = false ∧ pollState configuration p s = t := by
  simp [execPoll, pollWith]

/-- What RESET can answer. -/
theorem execReset_next_iff (s t : State) :
    execReset s = .next t ↔ s.fault = false ∧ resetState configuration s = t := by
  simp [execReset, resetWith]

/-- What one sampled bit can do to a port. -/
theorem sampleBit_cases (order : BitOrder) (ps : PortState) (d : Bool) :
    (24 ≤ ps.cnt.toNat ∧ ps.sampleBit order d = ps.recover) ∨
    (ps.cnt.toNat = 23 ∧ ps.sampleBit order d = ps.capture (shiftIn order ps.acc d)) ∨
    (ps.cnt.toNat < 23 ∧
      ps.sampleBit order d =
        { ps with acc := shiftIn order ps.acc d, cnt := BitVec.ofNat 5 (ps.cnt.toNat + 1) }) := by
  unfold PortState.sampleBit
  by_cases h : 24 ≤ ps.cnt.toNat
  · exact .inl ⟨h, by simp [h]⟩
  · by_cases h' : ps.cnt.toNat = 23
    · exact .inr (.inl ⟨h', by simp [h']⟩)
    · refine .inr (.inr ⟨by omega, ?_⟩)
      have : ps.cnt.toNat + 1 ≠ packetWidth := by simp only [packetWidth]; omega
      simp only [if_neg h, if_neg this]

/-- What a SIG can do to its port. -/
theorem samplePort_cases (order : BitOrder) (cfg : Config) (c d : Bool) (ps : PortState) :
    (active cfg.edge ps.lastClk c = true ∧
      samplePort order cfg c d ps = ({ ps with lastClk := some c } : PortState).sampleBit order d) ∨
    (active cfg.edge ps.lastClk c = false ∧ samplePort order cfg c d ps = { ps with lastClk := some c }) := by
  unfold samplePort
  cases active cfg.edge ps.lastClk c <;> simp

/-- What a POLL can do. -/
theorem pollState_cases (cfg : Config) (p : Port) (s : State) :
    ((s.port p).ready = false ∧ pollState cfg p s = s) ∨
    ((s.port p).ready = true ∧ validPacket cfg (s.port p).pkt = false ∧ pollState cfg p s = discardPacket p s) ∨
    ((s.port p).ready = true ∧ validPacket cfg (s.port p).pkt = true ∧
      pollState cfg p s = acceptPacket cfg p (mapPacket cfg (s.port p).pkt) s) := by
  unfold pollState decodePacket
  cases (s.port p).ready <;> cases validPacket cfg (s.port p).pkt <;> simp

/-- The bits of the accumulator after a shift (R74). -/
theorem shiftIn_msb_getLsbD (acc : Packet) (d : Bool) (i : Nat) :
    (shiftIn .msbFirst acc d).getLsbD i =
      (decide (i < 24) && if i = 0 then d else acc.getLsbD (i - 1)) := by
  rcases i with _ | i
  · cases d <;> simp [shiftIn]
  · by_cases h : i + 1 < 24
    · cases d <;> simp [shiftIn, h, BitVec.getLsbD_eq_getElem (show i < 24 by omega)]
    · have : ¬ i + 1 < 24 := h
      cases d <;> simp [shiftIn, this]

/-- Putting an element into a list permutes the list with the element in front. -/
theorem insertAt_perm {α : Type} (a : α) (l : List α) (n : Nat) : (insertAt a l n).Perm (a :: l) := by
  induction l generalizing n with
  | nil => exact List.Perm.refl _
  | cons b rest ih =>
    cases n with
    | zero => exact List.Perm.refl _
    | succ n => exact ((ih n).cons b).trans (List.Perm.swap a b rest)

/-- The order chosen for a list has the list's length. -/
@[simp] theorem permute_length {α : Type} (pick : Nat → Nat) (l : List α) :
    (permute pick l).length = l.length := by
  induction l with
  | nil => rfl
  | cons a rest ih => simpa [permute, ih] using (insertAt_perm a (permute pick rest) (pick rest.length)).length_eq

end Sys2Proof.Laws
end

