-- ==== Sys2Proof/Laws/PerInstr.lean ====
section
/-! SUPPORT. Statements about every stimulus, one lemma per constructor. -/

namespace Sys2Proof.Laws

/-- The mask of a stimulus's row in spec/opcode_table.json. -/
def rowMask : Instr → StimWord
  | .sig _ _ _ => 0xF8#8
  | .poll _ => 0xFB#8
  | .reset => 0xFF#8

/-- The match value of a stimulus's row in spec/opcode_table.json. -/
def rowMatch : Instr → StimWord
  | .sig _ _ _ => 0x00#8
  | .poll _ => 0x40#8
  | .reset => 0x80#8

/-- The encoding of a stimulus fits the mask and match of its row (R61, R62, R63). -/
def RowMatches.Statement (i : Instr) : Prop := encode i &&& rowMask i = rowMatch i

theorem RowMatches.sig (p : Port) (c d : Bool) : RowMatches.Statement (.sig p c d) := by
  cases p <;> cases c <;> cases d <;> rfl

theorem RowMatches.poll (p : Port) : RowMatches.Statement (.poll p) := by
  cases p <;> rfl

theorem RowMatches.reset : RowMatches.Statement .reset := rfl

end Sys2Proof.Laws
end

