-- ==== Sys2Proof/Laws/Step.lean ====
section
/-! SUPPORT. What one step can do, said once. -/

namespace Sys2Proof.Laws

open Sys2Proof.Machine

/-- A step from a state with `FAULT = 1`. -/
theorem step_fault {s : State} (hf : s.fault = true) : step s = .fault .configError := by
  unfold step nextWord
  cases s.pending with
  | nil => exact running_fault configuration_wellFormed hf _
  | cons w rest =>
    dsimp only
    cases decode w with
    | stimulus i => cases i <;> exact running_fault configuration_wellFormed (s := s.setPending rest) hf _
    | reserved why => exact running_fault configuration_wellFormed (s := s.setPending rest) hf _

/-- A step with no word waiting. -/
theorem step_nil {s : State} (hf : s.fault = false) (h : s.pending = []) : step s = .next s := by
  simp [step, nextWord, h, waitStep, running_ok configuration_wellFormed hf]

/-- A step that takes a word which spells a stimulus. -/
theorem step_stimulus {s : State} (w : StimWord) (rest : List StimWord) (i : Instr)
    (h : s.pending = w :: rest) (hd : decode w = .stimulus i) :
    step s = exec i (s.setPending rest) := by
  simp [step, nextWord, h, hd]

/-- A step that takes a reserved word. -/
theorem step_reserved {s : State} (w : StimWord) (rest : List StimWord) (why : Reserved) (hf : s.fault = false)
    (h : s.pending = w :: rest) (hd : decode w = .reserved why) :
    step s = .next (s.setPending rest).setRefused := by
  simp [step, nextWord, h, hd, reservedWordStep, running_ok configuration_wellFormed (s := s.setPending rest) hf]

/-- What a stimulus does when it answers a next state. -/
theorem exec_next_iff (i : Instr) (s t : State) :
    exec i s = .next t ↔ s.fault = false ∧
      t = match i with
        | .sig p c d => sigState .msbFirst configuration p c d s
        | .poll p => pollState configuration p s
        | .reset => resetState configuration s := by
  cases i <;> simp only [exec, execSig_next_iff, execPoll_next_iff, execReset_next_iff] <;>
    exact and_congr_right fun _ => eq_comm

/-- What a step can do when it answers a next state: wait, refuse a word, or apply a stimulus. -/
theorem step_next_cases {s t : State} (h : step s = .next t) :
    s.fault = false ∧
    ((s.pending = [] ∧ t = s) ∨
     (∃ w rest why, s.pending = w :: rest ∧ decode w = .reserved why ∧
        t = (s.setPending rest).setRefused) ∨
     (∃ w rest i, s.pending = w :: rest ∧ decode w = .stimulus i ∧
        exec i (s.setPending rest) = .next t)) := by
  cases hf : s.fault with
  | true => simp [step_fault hf] at h
  | false =>
    refine ⟨rfl, ?_⟩
    rcases hp : s.pending with _ | ⟨w, rest⟩
    · rw [step_nil hf hp] at h
      cases h
      exact .inl ⟨rfl, rfl⟩
    · rcases hd : decode w with i | why
      · rw [step_stimulus w rest i hp hd] at h
        exact .inr (.inr ⟨w, rest, i, rfl, hd, h⟩)
      · rw [step_reserved w rest why hf hp hd] at h
        cases h
        exact .inr (.inl ⟨w, rest, why, rfl, hd, rfl⟩)

/-- A run is the host's run of the machine. -/
theorem runSteps_eq_run (n : Nat) (s : State) : runSteps n s = Host.Core.run Sys2Proof.core n s := by
  induction n generalizing s with
  | zero => rfl
  | succ n ih =>
    cases hs : step s with
    | next t =>
      have hc : Sys2Proof.core.step s = .next t := hs
      simp only [runSteps, Host.Core.run, hs, hc, ih]
      rfl
    | fault r =>
      have hc : Sys2Proof.core.step s = .fault r := hs
      simp only [runSteps, Host.Core.run, hs, hc]
      rfl
    | refused r =>
      have hc : Sys2Proof.core.step s = .refused r := hs
      simp only [runSteps, Host.Core.run, hs, hc]
      rfl

/-- A run whose first step answers a next state. -/
theorem runSteps_succ (n : Nat) {s t : State} (h : step s = .next t) : runSteps (n + 1) s = runSteps n t := by
  simp only [runSteps, h]

/-- A run in two parts. -/
theorem runSteps_add (m n : Nat) {s t : State} (h : runSteps m s = .next t) :
    runSteps (m + n) s = runSteps n t := by
  induction m generalizing s with
  | zero =>
    cases h
    rw [Nat.zero_add]
  | succ m ih =>
    rw [Nat.add_right_comm]
    cases hs : step s with
    | next u =>
      rw [runSteps_succ _ hs] at h ⊢
      exact ih h
    | fault r => simp [runSteps, hs] at h
    | refused r => simp [runSteps, hs] at h

end Sys2Proof.Laws
end

