-- ==== Sys2Proof/Tests/Slice0.lean ====
section
/-! SUPPORT. Tests of single steps and functions against the vectors of 95_test_vectors.md and the encodings of
30_encoding.md, the smoke tests of the checks, and a witness for each statement that has hypotheses. -/

namespace Sys2Proof.Tests

open Sys2Proof Sys2Proof.Machine Sys2Proof.Claims

/-- Whether an outcome is a given next state. -/
def answers (o : Host.Outcome State Fault Refusal) (t : State) : Bool :=
  match o with
  | .next u => u == t
  | .fault _ => false
  | .refused _ => false

/-- What `answers` tells. -/
theorem answers_true {o : Host.Outcome State Fault Refusal} {t : State} (h : answers o t = true) : o = .next t := by
  cases o <;> simp_all [answers]

/-- JS1's fields in an otherwise reset machine. -/
def onJs1 (ps : PortState) : State := { State.reset with js1 := ps }

/-- JS2's fields in an otherwise reset machine. -/
def onJs2 (ps : PortState) : State := { State.reset with js2 := ps }

/-- A port that waits for an active edge with `cnt` bits collected. -/
def armed (acc : Packet) (cnt : Cursor) : PortState :=
  { PortState.reset with acc := acc, cnt := cnt, lastClk := some true }

/-- A port that holds a packet for the consumer. -/
def holding (pkt : Packet) (prev : Bitmap) : PortState :=
  { PortState.reset with pkt := pkt, ready := true, prev := prev }

/-! ## Decoding: words written out from R61, R62, R63, and reserved ones from R64 (95 section 2) -/

theorem test_decode_sig : decode 0b00000110#8 = .stimulus (.sig .js2 true false) := by decide
theorem test_decode_sig_data : decode 0b00000001#8 = .stimulus (.sig .js1 false true) := by decide
theorem test_decode_poll : decode 0b01000100#8 = .stimulus (.poll .js2) := by decide
theorem test_decode_reset : decode 0b10000000#8 = .stimulus .reset := by decide
theorem test_decode_reserved :
    decode 0xC0#8 = .reserved .classReserved ∧ decode 0x48#8 = .reserved .zeroFieldSet ∧
    decode 0x42#8 = .reserved .pollOperandSet ∧ decode 0x84#8 = .reserved .resetOperandSet := by decide
theorem test_table_word : decodeTableWord 8 0x44 = some (.poll .js2) ∧ decodeTableWord 8 0x81 = none := by decide

/-! ## Well-formedness: an ill-formed configuration for each check of R9 -/

theorem test_defect_value : { configuration with frameValue := 0x00007F#24, frameMask := 0x08423F#24 }.defect?
    = some .frameValueOutsideMask := by decide
theorem test_defect_range : { configuration with dataPos := fun b => defaultDataPos b + 1 }.defect?
    = some .dataPosOutOfRange := by decide
theorem test_defect_repeated : { configuration with dataPos := fun _ => 7 }.defect?
    = some .dataPosRepeated := by decide
theorem test_defect_framing :
    { configuration with dataPos := fun b => if b = Button.left then 6 else defaultDataPos b }.defect?
    = some .dataPosOnFramingBit := by decide
theorem test_defect_cover : { configuration with frameMask := 0x00427F#24 }.defect?
    = some .packetNotCovered := by decide
theorem test_instr_wellFormed : (Instr.sig .js1 true false).wellFormed = true := by decide

/-! ## The keymap check: a keymap that fails each condition of R110 -/

/-- A keymap with one symbol for every button. -/
def plainKeymap : List KeymapEntry := keymapOf fun _ => charA

theorem test_keymap_missing : keymapOk plainKeymap.tail = false := by decide
theorem test_keymap_twice : keymapOk ({ button := 0, value := .symbol charA } :: plainKeymap) = false := by decide
theorem test_keymap_other : keymapOk ({ button := 14, value := .symbol charA } :: plainKeymap) = false := by decide
theorem test_keymap_value :
    keymapOk ({ button := 0, value := charValue 0x7F#8 } :: plainKeymap.tail) = false ∧
    keymapOk ({ button := 0, value := keyValue 9 } :: plainKeymap.tail) = false ∧
    keymapOk ({ button := 0, value := keyValue 8 } :: plainKeymap.tail) = true := by decide

/-! ## Functions (95 sections 3, 5 and 6) -/

theorem test_active_falling : active .falling (some true) false = true ∧ active .falling (some false) true = false ∧
    active .falling none false = false := by decide
theorem test_active_others : active .rising (some false) true = true ∧ active .both (some true) false = true ∧
    active .both (some true) true = false := by decide
theorem test_valid : validPacket configuration 0xF7BDBE#24 = true ∧ validPacket configuration 0x00C03E#24 = false ∧
    validPacket configuration 0x00041F#24 = false := by decide
theorem test_map : mapPacket configuration 0x80003E#24 = 0x2000#14 ∧
    mapPacket configuration 0x00203E#24 = 0x0020#14 := by decide
theorem test_enc : encPacket configuration 0x0041#14 = 0x0080BE#24 ∧
    encPacket configuration 0x3FFF#14 = 0xF7BDBE#24 := by decide
theorem test_diff : changedButtons 0x2001#14 0x1001#14 = 0x3000#14 ∧ pressedButtons 0x2001#14 0x1001#14 = 0x2000#14 ∧
    releasedButtons 0x2001#14 0x1001#14 = 0x1000#14 := by decide
theorem test_events_count : (events configuration .js1 0x0000#14 0x3FFF#14).length = 14 := by decide
theorem test_event_word :
    eventWord { sym := .named .upArrow, dir := .pressed } = 0b1100000010#10 ∧
    eventWord { sym := charA, dir := .released } = 0b0001100001#10 := by decide
theorem test_asm : parseLine "SIG JS1, 0, 1" = some (.sig .js1 false true) ∧
    parseLine "POLL JS2" = some (.poll .js2) ∧ parseLine "POLL" = none := by decide
theorem test_permute : permute (fun _ => 1) [1, 2, 3] = [3, 1, 2] := by decide

/-! ## Single steps (95 sections 4.1, 7 and 8) -/

/-- S10: the 24th bit is captured. -/
theorem test_sig_capture : answers (exec (.sig .js1 false false) (onJs1 (armed 0x00041F#24 23#5)))
    (onJs1 { acc := 0#24, cnt := 0#5, lastClk := some false, pkt := 0x00083E#24, ready := true, prev := 0#14 })
    = true := by decide

/-- S15: a falling edge of JS2 shifts a bit in. -/
theorem test_sig_shift : answers (exec (.sig .js2 false true) (onJs2 (armed 0x000005#24 3#5)))
    (onJs2 { armed 0x00000B#24 4#5 with lastClk := some false }) = true := by decide

/-- Q2: the Scenario 1 packet. -/
theorem test_poll_valid : answers (exec (.poll .js1) (onJs1 (holding 0x00083E#24 0#14)))
    { onJs1 { holding 0x00083E#24 0x0008#14 with ready := false } with
      out := [{ sym := .named .upArrow, dir := .pressed }] } = true := by decide

/-- Q10: red only, after left and red, on JS2. -/
theorem test_poll_release : answers (exec (.poll .js2) (onJs2 (holding 0x00803E#24 0x0041#14)))
    { onJs2 { holding 0x00803E#24 0x0040#14 with ready := false } with
      out := [{ sym := charA, dir := .released }] } = true := by decide

/-- T2: RESET in the middle of a packet keeps `OUT` and `REFUSED`. -/
theorem test_reset : answers
    (exec .reset { onJs1 { armed 1#24 13#5 with lastClk := some false } with
      js2 := holding 0x0080BE#24 0x0041#14, out := [{ sym := charR, dir := .pressed }], refused := true })
    { State.reset with out := [{ sym := charR, dir := .pressed }], refused := true } = true := by decide

/-- P8's last word: a reserved word sets `REFUSED` and nothing else. -/
theorem test_step_reserved : answers (step { onJs1 (armed 1#24 5#5) with pending := [0x08#8] })
    { onJs1 (armed 1#24 5#5) with refused := true } = true := by decide

/-- T4: no step from a state with `FAULT = 1`, RESET included. -/
theorem test_step_fault :
    (match step { State.reset with fault := true, pending := [0x80#8] } with
      | .fault r => r == .configError | _ => false) = true := by decide

/-- The host's word is the next one to run. -/
theorem test_fetch : answers (step (State.reset.withFetchWord 8 0x02))
    (onJs1 { PortState.reset with lastClk := some true }) = true := by decide

/-! ## Witnesses: for each statement with hypotheses, a state and operands that meet them together -/

theorem witness_ReservedWordsOnlySetRefused :
    (let s := { State.reset with pending := [0xFF#8] }
     s.fault = false ∧ s.pending = 0xFF#8 :: [] ∧ decode 0xFF#8 = .reserved .classReserved) ∧
    (let s := { State.reset with refused := true }
     s.refused = true ∧ step s = .next s) :=
  ⟨by decide, rfl, answers_true (by decide)⟩

theorem witness_EventWordsFollowTheirFields :
    (eventWord { sym := .named .rightAlt, dir := .pressed }).getLsbD 8 = true ∧
    (eventWord { sym := .char 0x7E#8 rfl, dir := .released }).getLsbD 8 = false := by decide

theorem witness_PacketEncodeDecodeLaws :
    configuration.WellFormed ∧ validPacket configuration 0xF7BDBE#24 = true := by decide

theorem witness_PseudoStimuliExpand :
    idleLevel .falling = some true ∧ idleLevel .rising = some false := by decide

theorem witness_FirstSigOnlySetsTheLevel :
    configuration.WellFormed ∧ State.reset.fault = false ∧ (State.reset.port .js2).lastClk = none ∧
    exec .reset State.reset = .next State.reset :=
  ⟨by decide, by decide, rfl, answers_true (by decide)⟩

theorem witness_SigWithoutActiveEdge_rising :
    (onJs1 { armed 0x000015#24 5#5 with lastClk := some false }).fault = false ∧
    ¬ ((onJs1 { armed 0x000015#24 5#5 with lastClk := some false }).js1.lastClk = some true ∧ true = false) := by
  decide

theorem witness_SigWithoutActiveEdge_level :
    (onJs1 (armed 0x000015#24 5#5)).fault = false ∧
    ¬ ((onJs1 (armed 0x000015#24 5#5)).js1.lastClk = some true ∧ true = false) := by decide

/-- The machine's configuration with the other two values of `EDGE`. -/
theorem witness_every_edge :
    let rising := { configuration with edge := .rising }
    let both := { configuration with edge := .both }
    rising.WellFormed ∧ active rising.edge (some false) true = true ∧ active rising.edge (some true) false = false ∧
      both.WellFormed ∧ active both.edge (some true) false = true ∧ active both.edge (some false) false = false := by
  decide

theorem witness_ActiveEdgeShiftsAndCaptures_shift :
    let s := onJs1 (armed 0x10FFFF#24 22#5)
    s.fault = false ∧ (s.port .js1).lastClk = some true ∧ (s.port .js1).cnt.toNat ≤ 23 ∧
      (s.port .js1).cnt.toNat + 1 ≠ 24 := by decide

theorem witness_ActiveEdgeShiftsAndCaptures_capture :
    let s := onJs1 (armed 0x41FFFF#24 23#5)
    s.fault = false ∧ (s.port .js1).lastClk = some true ∧ (s.port .js1).cnt.toNat ≤ 23 ∧
      (s.port .js1).cnt.toNat + 1 = 24 := by decide

theorem witness_OverflowRecovery :
    (let s := onJs1 (armed 0xABCDEF#24 24#5)
     s.fault = false ∧ (s.port .js1).lastClk = some true ∧ 24 ≤ (s.port .js1).cnt.toNat) ∧
    (let s := onJs1 (armed 0xABCDEF#24 31#5)
     s.fault = false ∧ (s.port .js1).lastClk = some true ∧ 24 ≤ (s.port .js1).cnt.toNat) ∧
    (State.reset.port .js1).cnt.toNat ≤ 23 ∧ step State.reset = .next State.reset :=
  ⟨by decide, by decide, by decide, answers_true (by decide)⟩

theorem witness_SamplersAreIndependent :
    State.reset.fault = false ∧
    exec (.sig .js1 true false) State.reset = .next (onJs1 { PortState.reset with lastClk := some true }) ∧
    exec (.sig .js1 true false) (onJs1 { PortState.reset with prev := 1#14 }) =
      .next (onJs1 { PortState.reset with lastClk := some true, prev := 1#14 }) ∧
    { State.reset.port .js1 with prev := 1#14 } = (onJs1 { PortState.reset with prev := 1#14 }).port .js1 :=
  ⟨by decide, answers_true (by decide), answers_true (by decide), rfl⟩

/-- Twenty-four clock cycles with data 1: 24 active edges. -/
def cycles24 : List (Bool × Bool) := (List.replicate 24 [(true, true), (false, true)]).flatten

theorem witness_TwentyFourEdgesMakeOnePacket :
    let s := { State.reset with pending := sigWords .js1 cycles24 }
    s.fault = false ∧ (s.port .js1).cnt = 0#5 ∧ s.pending = sigWords .js1 cycles24 ++ [] ∧
      (sampledBits .falling (s.port .js1).lastClk cycles24).length = 24 := by decide

theorem witness_TwentyFourEdgesMakeOnePacket_partial :
    let s := { State.reset with pending := sigWords .js1 (cycles24.drop 2) }
    s.fault = false ∧ (s.port .js1).cnt = 0#5 ∧ s.pending = sigWords .js1 (cycles24.drop 2) ++ [] ∧
      (sampledBits .falling (s.port .js1).lastClk (cycles24.drop 2)).length = 23 := by decide

theorem witness_PacketStimuliDeliverThePacket :
    let s := { State.reset with pending := packetWords .js2 0x0080BE#24 ++ [0x44#8] }
    s.fault = false ∧ (s.port .js2).cnt = 0#5 ∧ s.pending = packetWords .js2 0x0080BE#24 ++ [0x44#8] := by decide

theorem witness_FramingCheckComparesFramingBits :
    configuration.WellFormed ∧ 0xF7BD80#24 &&& configuration.frameMask = 0#24 ∧
    configuration.frameMask.getLsbD 19 = true ∧ validPacket configuration 0x00803E#24 = true := by decide

theorem witness_MapperSelectsDataBits : configuration.WellFormed := by decide

theorem witness_BitOrdersAreEquivalent : configuration.WellFormed := by decide

theorem witness_ResolveUsesTheOwnKeymap : configOk configuration = true := by decide

theorem witness_EventsAreTheSymmetricDifference : configOk configuration = true := by decide

theorem witness_EventOrderAdmitsEveryPermutation :
    ([{ sym := charR, dir := .pressed }, { sym := charA, dir := .pressed }] : List Event).Perm
      (events configuration .js2 0x0041#14 0x0000#14) := by
  have h : events configuration .js2 0x0041#14 0x0000#14
      = [{ sym := charA, dir := .pressed }, { sym := charR, dir := .pressed }] := by decide
  rw [h]
  exact List.Perm.swap _ _ []

theorem witness_PollFollowsItsRule :
    ({ State.reset with fault := true }.fault = true) ∧
    (State.reset.fault = false ∧ (State.reset.port .js1).ready = false) ∧
    (let s := onJs1 (holding 0x00803F#24 0x0040#14)
     s.fault = false ∧ (s.port .js1).ready = true ∧ validPacket configuration (s.port .js1).pkt = false) ∧
    (let s := onJs1 (holding 0x00803E#24 0x0041#14)
     s.fault = false ∧ (s.port .js1).ready = true ∧ validPacket configuration (s.port .js1).pkt = true) := by decide

theorem witness_SecondPollDoesNothing :
    exec (.poll .js1) (onJs1 (holding 0x00083E#24 0#14)) =
      .next { onJs1 { holding 0x00083E#24 0x0008#14 with ready := false } with
        out := [{ sym := .named .upArrow, dir := .pressed }] } :=
  answers_true test_poll_valid

/-- A POLL of JS1, then a clock edge of JS1 that captures nothing. -/
theorem witness_PacketIsTakenAtMostOnce :
    let s := { onJs1 (holding 0x00803F#24 0#14) with pending := [0x02#8] }
    let t := { onJs1 { holding 0x00803F#24 0#14 with ready := false } with pending := [0x02#8] }
    let u := onJs1 { holding 0x00803F#24 0#14 with ready := false, lastClk := some true }
    exec (.poll .js1) s = .next t ∧ Relation.ReflTransGen (stepWithoutCapture .js1) t u := by
  refine ⟨answers_true (by decide), .single ⟨answers_true (by decide), ?_⟩⟩
  rintro w rest i packet hw hd ⟨d, rfl, -, hc, -⟩
  exact absurd hc (by decide)

/-- Reset, with packets that fail the check on their way to JS1. -/
def noisy (vs : List Packet) : State := { State.reset with pending := polledWords .js1 vs }

theorem noisy_pending (vs : List Packet) : (noisy vs).pending = polledWords .js1 vs ++ [] :=
  (List.append_nil _).symm

theorem witness_InvalidPacketsEmitNothing :
    ∃ s : State, s.fault = false ∧ (s.port .js1).cnt = 0#5 ∧
      validPacket configuration (s.port .js1).pkt = false ∧
      (∀ v ∈ [0x00803F#24, 0xFFFFFF#24], validPacket configuration v = false) ∧
      s.pending = polledWords .js1 [0x00803F#24, 0xFFFFFF#24] ++ [] :=
  ⟨noisy [0x00803F#24, 0xFFFFFF#24], by decide, by decide, by decide,
    List.forall_mem_cons.2 ⟨by decide, List.forall_mem_singleton.2 (by decide)⟩, noisy_pending _⟩

theorem witness_UnchangedBitmapEmitsNothing :
    let s := onJs1 (holding 0x00803E#24 0x0040#14)
    s.fault = false ∧ (s.port .js1).ready = true ∧ validPacket configuration (s.port .js1).pkt = true ∧
      mapPacket configuration (s.port .js1).pkt = (s.port .js1).prev := by decide

theorem witness_FirstPacketPressesHeldButtons :
    (let s := onJs1 (holding 0xF7BDBE#24 0#14)
     s.fault = false ∧ (s.port .js1).ready = true ∧ (s.port .js1).prev = 0x0000#14 ∧
       validPacket configuration (s.port .js1).pkt = true) ∧
    mapPacket configuration 0x00003E#24 = 0x0000#14 ∧ validPacket configuration 0x00003E#24 = true ∧
    exec .reset State.reset = .next State.reset :=
  ⟨by decide, by decide, by decide, answers_true (by decide)⟩

theorem witness_PacketStreamRefinesBitmapDiff :
    let s := { State.reset with pending := polledWords .js2 [0x0080BE#24, 0x00803F#24] ++ [0x80#8] }
    s.fault = false ∧ (s.port .js2).cnt = 0#5 ∧
      s.pending = polledWords .js2 [0x0080BE#24, 0x00803F#24] ++ [0x80#8] := by decide

theorem witness_OverwrittenPacketLeavesNoTrace :
    State.reset.fault = false ∧ (State.reset.port .js1).cnt = 0#5 := by decide

theorem witness_ResetValues : exec .reset State.reset = .next State.reset := answers_true (by decide)

theorem witness_ResetFollowsItsRule : configuration.WellFormed ∧ State.reset.fault = false := by decide

theorem witness_PowerOnIsReset :
    let s := onJs1 (armed 1#24 13#5)
    s.fault = false ∧ s.refused = false ∧ s.out = [] := by decide

theorem witness_HeldButtonPressesAgainAfterReset :
    let u := onJs1 (holding 0x00083E#24 0#14)
    exec .reset State.reset = .next State.reset ∧ u.fault = false ∧
      (u.port .js1).prev = (State.reset.port .js1).prev ∧ (u.port .js1).ready = true ∧
      validPacket configuration (u.port .js1).pkt = true ∧
      (mapPacket configuration (u.port .js1).pkt).getLsbD Button.up.index = true :=
  ⟨answers_true (by decide), by decide, rfl, rfl, by decide, by decide⟩

theorem witness_OnlyWellFormedConfigurationsRun :
    { configuration with frameMask := 0x00427F#24 }.defect? = some .packetNotCovered := test_defect_cover

theorem witness_KeymapCheckTestsBothKeymaps :
    resetWith configuration State.reset = .next State.reset ∧ ({ State.reset with fault := true }).fault = true :=
  ⟨answers_true (by decide), rfl⟩

/-- T3: a configuration whose `KEYMAP2` lacks an entry. -/
theorem witness_ConfigErrorIsFatal :
    let cfg := { configuration with keymap2 := plainKeymap.tail }
    cfg.WellFormed ∧ configOk cfg = false ∧ State.reset.fault = false := by decide

theorem witness_FaultStatesHaveNoStep :
    ({ State.reset with fault := true }).fault = true ∧
    step { State.reset with fault := true } = .fault .configError ∧
    exec (.poll .js1) { State.reset with fault := true } = .fault .configError := ⟨rfl, rfl, rfl⟩

theorem witness_ErrorsHaveTheirEffects :
    (let s := onJs1 (holding 0x00803F#24 0#14)
     s.fault = false ∧ errorMet configuration (.poll .js1) s = some .framingMismatch) ∧
    (let s := onJs1 (armed 0#24 24#5)
     s.fault = false ∧ errorMet configuration (.sig .js1 false true) s = some .cursorOverflow) ∧
    errorMet { configuration with keymap2 := plainKeymap.tail } .reset State.reset = some .configError ∧
    (onJs1 (armed 0x41FFFF#24 23#5)).Legal := by decide

theorem witness_StepRunsTheDecodedStimulus :
    let s := { State.reset with pending := [0x47#8 ^^^ 0x03#8] }
    s.pending = 0x44#8 :: [] ∧ decode 0x44#8 = .stimulus (.poll .js2) ∧
      (Instr.poll .js2).wellFormed = true := by decide

theorem witness_WaitingHoldsTheState : State.reset.fault = false ∧ State.reset.pending = [] := by decide

theorem witness_EveryFaultFreeStateHasAStep : State.reset.fault = false := by decide

theorem witness_StimuliKeepToTheirFootprint :
    let s := onJs1 { PortState.reset with prev := 1#14 }
    exec (.sig .js1 true false) State.reset = .next (onJs1 { PortState.reset with lastClk := some true }) ∧
    exec (.sig .js1 true false) s = .next (onJs1 { PortState.reset with lastClk := some true, prev := 1#14 }) ∧
    ∀ f ∈ readSet (.sig .js1 true false), sameField f State.reset s :=
  ⟨answers_true (by decide), answers_true (by decide), by simp [readSet, sameField, onJs1, State.port, State.reset]⟩

/-- A state in which a falling edge on JS1 is a capture. -/
def capturing (ready : Bool) : State := onJs1 { armed 0x00041F#24 23#5 with ready := ready }

/-- The state after that capture. -/
def captured : State :=
  onJs1 { acc := 0#24, cnt := 0#5, lastClk := some false, pkt := 0x00083E#24, ready := true, prev := 0#14 }

theorem witness_ReadyFlagDiscipline :
    (exec (.sig .js1 false false) (capturing false) = .next captured ∧
      ((capturing false).port .js1).ready = false ∧ (captured.port .js1).ready = true) ∧
    (exec (.sig .js1 false false) (capturing true) = .next captured ∧
      captures (.sig .js1 false false) (capturing true) .js1 0x00083E#24) ∧
    (exec (.poll .js1) (onJs1 (holding 0#24 0#14)) = .next State.reset ∧
      ((onJs1 (holding 0#24 0#14)).port .js1).ready = true) ∧
    (exec .reset (onJs1 (holding 0#24 0#14)) = .next State.reset) :=
  ⟨⟨answers_true (by decide), rfl, rfl⟩, ⟨answers_true (by decide), false, by decide⟩,
    ⟨answers_true (by decide), rfl⟩, answers_true (by decide)⟩

theorem witness_PacketBufferChangesOnlyAtCapture :
    (exec (.sig .js1 false false) (capturing false) = .next captured ∧
      (captured.port .js1).pkt ≠ ((capturing false).port .js1).pkt ∧
      captures (.sig .js1 false false) (capturing false) .js1 0x00083E#24) ∧
    (exec .reset captured = .next State.reset ∧ (State.reset.port .js1).pkt ≠ (captured.port .js1).pkt) :=
  ⟨⟨answers_true (by decide), by decide, false, by decide⟩, answers_true (by decide), by decide⟩

theorem witness_PrevIsTheLastValidBitmap :
    (let s := onJs1 (holding 0x00083E#24 0#14)
     let t := { onJs1 { holding 0x00083E#24 0x0008#14 with ready := false } with
        out := [{ sym := .named .upArrow, dir := .pressed }] }
     exec (.poll .js1) s = .next t ∧ (t.port .js1).prev ≠ (s.port .js1).prev ∧
       (s.port .js1).ready = true ∧ validPacket configuration (s.port .js1).pkt = true) ∧
    (let s := onJs1 (holding 0x00083E#24 1#14)
     exec .reset s = .next State.reset ∧ (State.reset.port .js1).prev ≠ (s.port .js1).prev) :=
  ⟨⟨answers_true test_poll_valid, by decide, rfl, by decide⟩, answers_true (by decide), by decide⟩

theorem witness_OutputStreamIsAppendOnly :
    (exec (.poll .js1) (onJs1 (holding 0x00083E#24 0#14)) =
      .next { onJs1 { holding 0x00083E#24 0x0008#14 with ready := false } with
        out := [] ++ [{ sym := .named .upArrow, dir := .pressed }] }) ∧
    (let s := { State.reset with refused := true }
     s.refused = true ∧ step s = .next s) :=
  ⟨answers_true test_poll_valid, rfl, answers_true (by decide)⟩

theorem witness_StepKeepsLegalStates :
    (onJs1 (armed 0x3FFFFF#24 22#5)).Legal ∧
    step { onJs1 (armed 0x3FFFFF#24 22#5) with pending := [0x01#8] } =
      .next (onJs1 { armed 0x7FFFFF#24 23#5 with lastClk := some false }) ∧
    ({ onJs1 (armed 0x3FFFFF#24 22#5) with pending := [0x01#8] } : State).Legal :=
  ⟨by decide, answers_true (by decide), by decide⟩

theorem witness_LegalShiftLosesNothing : (onJs1 (armed 0x7FFFFF#24 23#5)).Legal := by decide

theorem witness_UnusedBitsAreUnobservable :
    let s := { onJs1 (armed 0x000003#24 2#5) with pending := [0x01#8] }
    let s' := { onJs1 { armed 0xFFFFFF#24 2#5 with pkt := 0x123456#24 } with pending := [0x01#8] }
    s.SameUpToUnused s' ∧
      step s = .next (onJs1 { armed 0x000007#24 3#5 with lastClk := some false }) :=
  ⟨by decide, answers_true (by decide)⟩

end Sys2Proof.Tests
end

section
/-! PROOFS. Which configurations are well-formed (00_scope.md R9) and what the guard does with the others. -/

namespace Sys2Proof.Proofs

open Sys2Proof.Machine Sys2Proof.Laws Sys2Proof.Claims

/-- A test over the list of buttons passes for no button exactly when it fails for each. -/
theorem any_button_eq_false_iff (f : Button → Bool) : ¬ Button.all.any f = true ↔ ∀ b, f b = false := by
  simp

/-- The list of buttons holds no button twice, so its image has no repetition exactly when the map is injective. -/
theorem nodup_map_buttons_iff {α : Type} (f : Button → α) :
    (Button.all.map f).Nodup ↔ ∀ a b, f a = f b → a = b := by
  have hall : Button.all.Nodup := by decide
  simp [List.nodup_map_iff_inj_on hall]

/-- A chain of tests finds nothing when the first test fails and the rest finds nothing. -/
theorem ite_some_eq_none_iff {α : Type} {c : Prop} [Decidable c] {a : α} {rest : Option α} :
    (if c then some a else rest) = none ↔ ¬ c ∧ rest = none := by
  by_cases h : c <;> simp [h]

/-- R9: the five conditions that `Config.defect?` tests in turn. -/
theorem wellFormed_iff (cfg : Config) : cfg.WellFormed ↔
    cfg.frameValue &&& ~~~cfg.frameMask = 0#24 ∧
    (∀ b, cfg.dataPos b < 24) ∧ (∀ a b, cfg.dataPos a = cfg.dataPos b → a = b) ∧
    (∀ b, cfg.frameMask.getLsbD (cfg.dataPos b) = false) ∧
    popcount cfg.frameMask + 14 = 24 := by
  have hrange : ¬ (Button.all.any fun b => decide (24 ≤ cfg.dataPos b)) = true ↔ ∀ b, cfg.dataPos b < 24 := by
    simp
  rw [← nodup_map_buttons_iff, ← hrange, ← any_button_eq_false_iff]
  simp only [Config.WellFormed, Config.defect?, ite_some_eq_none_iff, ne_eq, not_not, and_true]

/-- Settles O36: the conditions are `wellFormed_iff`, the defaults are evaluated, and the refusal is that of the
guard every stimulus passes. -/
theorem onlyWellFormedConfigurationsRun : Obligations.OnlyWellFormedConfigurationsRun :=
  ⟨wellFormed_iff, configuration_wellFormed, by decide, by decide, by decide,
    fun _ _ s _ _ _ hdefect =>
      ⟨running_refused hdefect s _, running_refused hdefect s _, running_refused hdefect s _⟩⟩

end Sys2Proof.Proofs
end

section
/-! PROOFS. Packet construction, check and mapper are inverse to each other (41_frame_decoder.md R94): under a
well-formed configuration every packet bit is either a framing bit, which the check fixes, or the data bit of
exactly one button, which the mapper reads. -/

namespace Sys2Proof.Proofs

open Sys2Proof.Machine Sys2Proof.Laws

/-! ### Bitmaps by button -/

/-- The buttons' indexes in order are 0 to 13 (R55). -/
theorem map_index_buttons : Button.all.map Button.index = List.range 14 := rfl

/-- Every bitmap bit belongs to a button. -/
theorem exists_button_index {i : Nat} (hi : i < 14) : ∃ b : Button, b.index = i := by
  have hmem : i ∈ Button.all.map Button.index := by simpa [map_index_buttons] using hi
  simpa using hmem

/-- Two bitmaps that agree on every button are equal. -/
theorem bitmap_ext {B C : Bitmap} (h : ∀ b : Button, B.getLsbD b.index = C.getLsbD b.index) : B = C := by
  refine BitVec.eq_of_getLsbD_eq fun i hi => ?_
  obtain ⟨b, rfl⟩ := exists_button_index hi
  exact h b

/-- R91: the mapper puts the packet bit at a button's data position into that button's bitmap bit. -/
theorem mapPacket_getLsbD_index (cfg : Config) (P : Packet) (b : Button) :
    (mapPacket cfg P).getLsbD b.index = P.getLsbD (cfg.dataPos b) := by
  rw [mapPacket, gather_getLsbD, decide_eq_true (button_index_lt b), Bool.true_and, buttonAt, button_all_index]

/-- R93: a bit of a constructed packet comes from the framing value or from a pressed button. -/
theorem encPacket_getLsbD_iff (cfg : Config) (B : Bitmap) {n : Nat} (hn : n < 24) :
    (encPacket cfg B).getLsbD n = true ↔
      cfg.frameValue.getLsbD n = true ∨ ∃ b, cfg.dataPos b = n ∧ B.getLsbD b.index = true := by
  rw [encPacket, BitVec.getLsbD_or, gather_getLsbD, decide_eq_true hn]
  simp

/-! ### Framing bits and data bits -/

/-- `P` has the framing value's bit wherever the mask has a bit set. -/
def FramingAgrees (cfg : Config) (P : Packet) : Prop :=
  ∀ n, cfg.frameMask.getLsbD n = true → P.getLsbD n = cfg.frameValue.getLsbD n

section WellFormed

variable {cfg : Config} (hwf : cfg.WellFormed)
include hwf

/-- The framing value has no bit outside the mask. -/
theorem frameValue_getLsbD_of_mask_false {n : Nat} (hmask : cfg.frameMask.getLsbD n = false) :
    cfg.frameValue.getLsbD n = false := by
  obtain ⟨hvalue, -⟩ := (wellFormed_iff cfg).mp hwf
  have hbit : (cfg.frameValue &&& ~~~cfg.frameMask).getLsbD n = false := by rw [hvalue, BitVec.getLsbD_zero]
  by_cases hn : n < 24
  · rwa [BitVec.getLsbD_and, BitVec.getLsbD_not, hmask, decide_eq_true hn, Bool.not_false, Bool.and_true,
      Bool.and_true] at hbit
  · exact BitVec.getLsbD_of_ge _ _ (Nat.le_of_not_lt hn)

/-- R90 bit by bit. -/
theorem validPacket_iff (P : Packet) : validPacket cfg P = true ↔ FramingAgrees cfg P := by
  rw [validPacket, beq_iff_eq]
  constructor
  · intro hvalid n hmask
    simp [← hvalid, hmask]
  · intro hagrees
    refine BitVec.eq_of_getLsbD_eq fun n _ => ?_
    cases hmask : cfg.frameMask.getLsbD n with
    | true => simp [hmask, hagrees n hmask]
    | false => simp [hmask, frameValue_getLsbD_of_mask_false hwf hmask]

/-- The 10 framing positions and the 14 data positions are the 24 positions of a packet, each once: the two lists
are disjoint and without repetition, and they count 24 (R9). -/
theorem framing_append_data_perm :
    ((List.range 24).filter cfg.frameMask.getLsbD ++ Button.all.map cfg.dataPos).Perm (List.range 24) := by
  obtain ⟨-, hrange, hinj, hdata, hcover⟩ := (wellFormed_iff cfg).mp hwf
  have hnodup : ((List.range 24).filter cfg.frameMask.getLsbD ++ Button.all.map cfg.dataPos).Nodup := by
    refine List.Nodup.append (List.nodup_range.filter _) ((nodup_map_buttons_iff _).mpr hinj) ?_
    intro n hframing hn
    obtain ⟨b, -, rfl⟩ := List.mem_map.mp hn
    simp [hdata b] at hframing
  have hsubset : (List.range 24).filter cfg.frameMask.getLsbD ++ Button.all.map cfg.dataPos ⊆ List.range 24 :=
    List.append_subset.mpr ⟨List.filter_subset_self _, by simpa [List.subset_def] using hrange⟩
  refine (hnodup.subperm hsubset).perm_of_length_le (le_of_eq ?_)
  calc (List.range 24).length = popcount cfg.frameMask + 14 := by rw [hcover, List.length_range]
    _ = _ := by simp [popcount, List.countP_eq_length_filter, Button.all]

/-- Every position of a packet is a framing bit or the data position of a button. -/
theorem framing_or_data {n : Nat} (hn : n < 24) :
    cfg.frameMask.getLsbD n = true ∨ ∃ b, cfg.dataPos b = n := by
  have hmem := (framing_append_data_perm hwf).mem_iff.mpr (List.mem_range.mpr hn)
  simpa [hn] using hmem

/-- A constructed packet has the framing value on the framing bits: no button's data position is one. -/
theorem encPacket_framingAgrees (B : Bitmap) : FramingAgrees cfg (encPacket cfg B) := by
  obtain ⟨-, -, -, hdata, -⟩ := (wellFormed_iff cfg).mp hwf
  intro n hmask
  have hother : ∀ b, cfg.dataPos b ≠ n := by
    rintro b rfl
    simp [hdata b] at hmask
  rw [Bool.eq_iff_iff, encPacket_getLsbD_iff cfg B (BitVec.lt_of_getLsbD hmask)]
  simp [hother]

/-- A constructed packet has a button's bitmap bit at its data position, which is no other button's and no
framing bit. -/
theorem encPacket_getLsbD_dataPos (B : Bitmap) (b : Button) :
    (encPacket cfg B).getLsbD (cfg.dataPos b) = B.getLsbD b.index := by
  obtain ⟨-, hrange, hinj, hdata, -⟩ := (wellFormed_iff cfg).mp hwf
  have hvalue := frameValue_getLsbD_of_mask_false hwf (hdata b)
  have hpos : ∀ a, cfg.dataPos a = cfg.dataPos b ↔ a = b := fun a => ⟨hinj a b, congrArg _⟩
  rw [Bool.eq_iff_iff, encPacket_getLsbD_iff cfg B (hrange b)]
  simp [hvalue, hpos]

/-! ### The laws of R94 -/

/-- Two valid packets with the same bitmap are equal: the check fixes the framing bits and the bitmap the others. -/
theorem eq_of_valid_of_mapPacket_eq {P Q : Packet} (hP : validPacket cfg P = true) (hQ : validPacket cfg Q = true)
    (hmap : mapPacket cfg P = mapPacket cfg Q) : P = Q := by
  rw [validPacket_iff hwf] at hP hQ
  refine BitVec.eq_of_getLsbD_eq fun n hn => ?_
  obtain hmask | ⟨b, rfl⟩ := framing_or_data hwf hn
  · rw [hP n hmask, hQ n hmask]
  · rw [← mapPacket_getLsbD_index, ← mapPacket_getLsbD_index, hmap]

/-- R94, first half of law 2: a constructed packet passes the check. -/
theorem validPacket_encPacket (B : Bitmap) : validPacket cfg (encPacket cfg B) = true :=
  (validPacket_iff hwf _).mpr (encPacket_framingAgrees hwf B)

/-- R94, second half of law 2: a constructed packet carries its bitmap. -/
theorem mapPacket_encPacket (B : Bitmap) : mapPacket cfg (encPacket cfg B) = B :=
  bitmap_ext fun b => by rw [mapPacket_getLsbD_index, encPacket_getLsbD_dataPos hwf]

/-- R94, law 3: a valid packet is the one that carries its bitmap. -/
theorem encPacket_mapPacket {P : Packet} (hP : validPacket cfg P = true) : encPacket cfg (mapPacket cfg P) = P :=
  eq_of_valid_of_mapPacket_eq hwf (validPacket_encPacket hwf _) hP (mapPacket_encPacket hwf _)

/-- The mapper and the constructor are inverse bijections between the valid packets and the bitmaps. -/
def validPacketEquiv : { P : Packet // validPacket cfg P = true } ≃ Bitmap where
  toFun P := mapPacket cfg P.val
  invFun B := ⟨encPacket cfg B, validPacket_encPacket hwf B⟩
  left_inv P := Subtype.ext (encPacket_mapPacket hwf P.property)
  right_inv B := mapPacket_encPacket hwf B

/-- R94, law 4, counted through `validPacketEquiv`. -/
theorem card_validPackets : Nat.card { P : Packet // validPacket cfg P = true } = 2 ^ 14 :=
  calc Nat.card { P : Packet // validPacket cfg P = true }
    _ = Nat.card (Fin (2 ^ 14)) := Nat.card_congr ((validPacketEquiv hwf).trans BitVec.equivFin.toEquiv)
    _ = 2 ^ 14 := Nat.card_fin _

end WellFormed

/-- Settles O6: the round trips and the count are those of `validPacketEquiv`; determinism is that
`decodePacket` is a function. -/
theorem packetEncodeDecodeLaws : Obligations.PacketEncodeDecodeLaws :=
  fun cfg hwf =>
    ⟨fun _ _ => congrArg (decodePacket cfg),
      fun B => ⟨validPacket_encPacket hwf B, mapPacket_encPacket hwf B⟩,
      fun _ => encPacket_mapPacket hwf,
      card_validPackets hwf⟩

end Sys2Proof.Proofs
end

section
/-! PROOFS. What each stimulus does, field by field, said once. A stimulus acts on each port by itself and appends
to `OUT` (10_state.md R32), so its effect is given as a function of one `PortState` and as a list of events. -/

namespace Sys2Proof.Proofs

open Sys2Proof.Machine Sys2Proof.Laws Sys2Proof.Claims

/-! ### SIG at its own port (R77) -/

/-- The machine samples at a falling edge (R71). -/
theorem active_configuration_iff (prev : Option Bool) (c : Bool) :
    active configuration.edge prev c = true ↔ prev = some true ∧ c = false := by
  rcases prev with _ | _ | _ <;> cases c <;> decide

/-- A SIG with clock level `c` completes a packet: an active edge that finds 23 bits collected (R75). -/
def completes (cfg : Config) (c : Bool) (ps : PortState) : Bool :=
  active cfg.edge ps.lastClk c && decide (ps.cnt.toNat = 23)

theorem completes_iff (cfg : Config) (c : Bool) (ps : PortState) :
    completes cfg c ps = true ↔ active cfg.edge ps.lastClk c = true ∧ ps.cnt.toNat = 23 := by
  simp [completes]

/-- Whether a SIG completes a packet depends on the clock level and the cursor. -/
theorem completes_congr {a b : PortState} (hclk : a.lastClk = b.lastClk) (hcnt : a.cnt = b.cnt) (cfg : Config)
    (c : Bool) : completes cfg c a = completes cfg c b := by
  rw [completes, completes, hclk, hcnt]

section Sample

variable (order : BitOrder) (cfg : Config) (c d : Bool) (ps : PortState)

/-- R73 to R76, field by field. -/
theorem samplePort_eq : samplePort order cfg c d ps =
    { acc := if active cfg.edge ps.lastClk c then
          if ps.cnt.toNat < 23 then shiftIn order ps.acc d else 0#24
        else ps.acc
      cnt := if active cfg.edge ps.lastClk c then
          if ps.cnt.toNat < 23 then BitVec.ofNat 5 (ps.cnt.toNat + 1) else 0#5
        else ps.cnt
      lastClk := some c
      pkt := if completes cfg c ps then shiftIn order ps.acc d else ps.pkt
      ready := completes cfg c ps || ps.ready
      prev := ps.prev } := by
  obtain ⟨hactive, heq⟩ | ⟨hidle, heq⟩ := samplePort_cases order cfg c d ps
  · obtain ⟨hcnt, hbit⟩ | ⟨hcnt, hbit⟩ | ⟨hcnt, hbit⟩ := sampleBit_cases order { ps with lastClk := some c } d
    · have hover : ¬ ps.cnt.toNat < 23 ∧ ps.cnt.toNat ≠ 23 := by dsimp only at hcnt; omega
      simp [heq, hbit, hactive, hover, completes, PortState.recover]
    · dsimp only at hcnt
      simp [heq, hbit, hactive, hcnt, completes, PortState.capture, PortState.raiseReady]
    · dsimp only at hcnt
      simp [heq, hbit, hactive, hcnt, hcnt.ne, completes]
  · simp [heq, hidle, completes]

theorem samplePort_acc : (samplePort order cfg c d ps).acc =
    if active cfg.edge ps.lastClk c then
      if ps.cnt.toNat < 23 then shiftIn order ps.acc d else 0#24
    else ps.acc := by rw [samplePort_eq]

theorem samplePort_cnt : (samplePort order cfg c d ps).cnt =
    if active cfg.edge ps.lastClk c then
      if ps.cnt.toNat < 23 then BitVec.ofNat 5 (ps.cnt.toNat + 1) else 0#5
    else ps.cnt := by rw [samplePort_eq]

@[simp] theorem samplePort_lastClk : (samplePort order cfg c d ps).lastClk = some c := by rw [samplePort_eq]

theorem samplePort_pkt : (samplePort order cfg c d ps).pkt =
    if completes cfg c ps then shiftIn order ps.acc d else ps.pkt := by rw [samplePort_eq]

theorem samplePort_ready : (samplePort order cfg c d ps).ready = (completes cfg c ps || ps.ready) := by
  rw [samplePort_eq]

@[simp] theorem samplePort_prev : (samplePort order cfg c d ps).prev = ps.prev := by rw [samplePort_eq]

end Sample

/-! ### POLL at its own port (R108) -/

/-- A POLL takes a packet that passes the check. -/
def takesValid (cfg : Config) (ps : PortState) : Bool := ps.ready && validPacket cfg ps.pkt

theorem takesValid_iff (cfg : Config) (ps : PortState) :
    takesValid cfg ps = true ↔ ps.ready = true ∧ validPacket cfg ps.pkt = true := by
  simp [takesValid]

/-- Two ports that agree on the handoff are both taken from, or neither. -/
theorem takesValid_congr {a b : PortState} (hready : a.ready = b.ready) (hpkt : a.pkt = b.pkt) (cfg : Config) :
    takesValid cfg a = takesValid cfg b := by
  rw [takesValid, takesValid, hready, hpkt]

/-- What a POLL leaves in its port. -/
def polledPort (cfg : Config) (ps : PortState) : PortState :=
  { ps with
    ready := false
    prev := if takesValid cfg ps then mapPacket cfg ps.pkt else ps.prev }

/-- What a POLL of `p` appends to an `OUT` of `emitted` events. -/
def polledEvents (cfg : Config) (emitted : Nat) (p : Port) (ps : PortState) : List Event :=
  if takesValid cfg ps then orderedEvents cfg emitted p (mapPacket cfg ps.pkt) ps.prev else []

@[simp] theorem polledPort_acc (cfg : Config) (ps : PortState) : (polledPort cfg ps).acc = ps.acc := rfl
@[simp] theorem polledPort_cnt (cfg : Config) (ps : PortState) : (polledPort cfg ps).cnt = ps.cnt := rfl
@[simp] theorem polledPort_lastClk (cfg : Config) (ps : PortState) : (polledPort cfg ps).lastClk = ps.lastClk := rfl
@[simp] theorem polledPort_pkt (cfg : Config) (ps : PortState) : (polledPort cfg ps).pkt = ps.pkt := rfl
@[simp] theorem polledPort_ready (cfg : Config) (ps : PortState) : (polledPort cfg ps).ready = false := rfl

theorem polledPort_prev (cfg : Config) (ps : PortState) :
    (polledPort cfg ps).prev = if takesValid cfg ps then mapPacket cfg ps.pkt else ps.prev := rfl

/-- A POLL of a port that holds no packet leaves the port as it is. -/
theorem polledPort_of_not_ready (cfg : Config) {ps : PortState} (hready : ps.ready = false) :
    polledPort cfg ps = ps := by
  cases ps
  simp_all [polledPort, takesValid]

/-- A POLL is an update of its port and an append to `OUT`. -/
theorem pollState_eq (cfg : Config) (p : Port) (s : State) :
    pollState cfg p s =
      (s.setPort p (polledPort cfg (s.port p))).setOut
        (s.out ++ polledEvents cfg s.out.length p (s.port p)) := by
  obtain ⟨hready, heq⟩ | ⟨hready, hvalid, heq⟩ | ⟨hready, hvalid, heq⟩ := pollState_cases cfg p s
  · rw [heq, polledPort_of_not_ready cfg hready, setPort_self]
    simp [polledEvents, takesValid, hready, State.setOut]
  · cases p <;>
      simp [heq, discardPacket, polledPort, polledEvents, takesValid, hready, hvalid, PortState.lowerReady,
        State.setOut, State.setPort]
  · simp [heq, acceptPacket, polledPort, polledEvents, takesValid, hready, hvalid, PortState.lowerReady]

/-! ### The events of one POLL (R103) -/

/-- The chosen order of a list is a permutation of it. -/
theorem permute_perm {α : Type} (pick : Nat → Nat) (l : List α) : (permute pick l).Perm l := by
  induction l with
  | nil => exact List.Perm.refl _
  | cons a rest ih => exact (insertAt_perm a _ _).trans (ih.cons a)

/-- A POLL appends its packet's events in some order. -/
theorem polledEvents_perm (cfg : Config) (emitted : Nat) (p : Port) (ps : PortState) :
    (polledEvents cfg emitted p ps).Perm
      (if takesValid cfg ps then events cfg p (mapPacket cfg ps.pkt) ps.prev else []) := by
  unfold polledEvents
  split
  · exact permute_perm _ _
  · exact List.Perm.refl _

/-! ### Every stimulus at every port -/

/-- What a stimulus leaves in the fields of port `p`. -/
def portAfter (i : Instr) (p : Port) (ps : PortState) : PortState :=
  match i with
  | .sig q c d => if q = p then samplePort .msbFirst configuration c d ps else ps
  | .poll q => if q = p then polledPort configuration ps else ps
  | .reset => PortState.reset

/-- What a stimulus appends to `OUT`. -/
def emittedEvents (i : Instr) (s : State) : List Event :=
  match i with
  | .sig _ _ _ => []
  | .poll p => polledEvents configuration s.out.length p (s.port p)
  | .reset => []

@[simp] theorem emittedEvents_sig (p : Port) (c d : Bool) (s : State) : emittedEvents (.sig p c d) s = [] := rfl
@[simp] theorem emittedEvents_reset (s : State) : emittedEvents .reset s = [] := rfl

theorem emittedEvents_poll (p : Port) (s : State) :
    emittedEvents (.poll p) s = polledEvents configuration s.out.length p (s.port p) := rfl

section PortAfter

variable (p : Port) (c d : Bool) (ps : PortState)

@[simp] theorem portAfter_sig :
    portAfter (.sig p c d) p ps = samplePort .msbFirst configuration c d ps := if_pos rfl

@[simp] theorem portAfter_poll : portAfter (.poll p) p ps = polledPort configuration ps := if_pos rfl

@[simp] theorem portAfter_reset : portAfter .reset p ps = PortState.reset := rfl

theorem portAfter_sig_of_ne {p q : Port} (h : q ≠ p) : portAfter (.sig q c d) p ps = ps := if_neg h

theorem portAfter_poll_of_ne {p q : Port} (h : q ≠ p) : portAfter (.poll q) p ps = ps := if_neg h

end PortAfter

/-- Everything a stimulus does to the state, one field at a time. -/
theorem exec_next_fields {i : Instr} {s t : State} (h : exec i s = .next t) :
    (∀ p, t.port p = portAfter i p (s.port p)) ∧ t.out = s.out ++ emittedEvents i s ∧
      t.fault = false ∧ t.refused = s.refused ∧ t.pending = s.pending := by
  cases i with
  | sig q c d =>
    obtain ⟨hfault, rfl⟩ := (execSig_next_iff q c d s t).mp h
    refine ⟨fun p => ?_, by simp [sigState], by simpa [sigState] using hfault,
      by simp [sigState], by simp [sigState]⟩
    obtain rfl | hne := eq_or_ne q p
    · simp [sigState]
    · rw [sigState, setPort_port_of_ne _ _ _ _ hne.symm, portAfter_sig_of_ne c d _ hne]
  | poll q =>
    obtain ⟨hfault, rfl⟩ := (execPoll_next_iff q s t).mp h
    rw [pollState_eq]
    refine ⟨fun p => ?_, rfl, by simpa using hfault, by simp, by simp⟩
    obtain rfl | hne := eq_or_ne q p
    · simp
    · rw [setOut_port, setPort_port_of_ne _ _ _ _ hne.symm, portAfter_poll_of_ne _ hne]
  | reset =>
    obtain ⟨-, rfl⟩ := (execReset_next_iff s t).mp h
    exact ⟨fun p => by cases p <;> rfl, (List.append_nil _).symm, by simp [resetState], rfl, rfl⟩

/-- A stimulus answers a next state from every state without a fault (R48). -/
theorem exec_answers (i : Instr) {s : State} (hfault : s.fault = false) : ∃ t, exec i s = .next t :=
  ⟨_, (exec_next_iff i s _).mpr ⟨hfault, rfl⟩⟩

/-- A stimulus that answers a next state found no fault (R123). -/
theorem fault_false_of_exec {i : Instr} {s t : State} (h : exec i s = .next t) : s.fault = false :=
  ((exec_next_iff i s t).mp h).1

end Sys2Proof.Proofs
end

section
/-! PROOFS. The legal states are an invariant (10_state.md R22, R31; 40_edge_sampler.md R72, R80): each stimulus
keeps each port legal. -/

namespace Sys2Proof.Proofs

open Sys2Proof.Machine Sys2Proof.Laws

/-- A state is legal when every port is and no fault stands. -/
theorem legal_iff (s : State) : s.Legal ↔ (∀ p, (s.port p).Legal) ∧ s.fault = false :=
  ⟨fun ⟨h1, h2, hfault⟩ => ⟨fun p => by cases p <;> assumption, hfault⟩,
    fun ⟨hport, hfault⟩ => ⟨hport .js1, hport .js2, hfault⟩⟩

/-- A port at its reset values is legal. -/
theorem legal_reset : PortState.reset.Legal := by decide

/-- The shift of R74 adds at most one bit to the accumulator. -/
theorem shiftIn_lt_two_pow_succ {acc : Packet} {n : Nat} (h : acc.toNat < 2 ^ n) (d : Bool) :
    (shiftIn .msbFirst acc d).toNat < 2 ^ (n + 1) := by
  have hshift : (acc <<< 1).toNat < 2 ^ (n + 1) := by
    rw [BitVec.toNat_shiftLeft, Nat.shiftLeft_eq, pow_succ]
    exact (Nat.mod_le _ _).trans_lt (by omega)
  have hbit : ((BitVec.ofBool d).setWidth 24).toNat < 2 ^ (n + 1) := by
    cases d <;> simp
  rw [shiftIn, BitVec.toNat_or]
  exact Nat.or_lt_two_pow hshift hbit

/-- A SIG keeps its port legal: below 23 the cursor and the accumulator's bits grow together, and at 23 both
start again. -/
theorem legal_samplePort {ps : PortState} (h : ps.Legal) (cfg : Config) (c d : Bool) :
    (samplePort .msbFirst cfg c d ps).Legal := by
  obtain ⟨hcnt, hacc, -⟩ := h
  rw [PortState.Legal, samplePort_acc, samplePort_cnt, samplePort_lastClk]
  by_cases hactive : active cfg.edge ps.lastClk c = true
  · by_cases hlt : ps.cnt.toNat < 23
    · have hnext : (BitVec.ofNat 5 (ps.cnt.toNat + 1)).toNat = ps.cnt.toNat + 1 := by
        rw [BitVec.toNat_ofNat]
        omega
      have hshift := shiftIn_lt_two_pow_succ hacc d
      simp only [hactive, hlt, if_true, hnext]
      exact ⟨hlt, hshift, by simp⟩
    · simp [hactive, hlt]
  · simp [hactive, hcnt, hacc]

/-- A POLL keeps its port legal: it leaves the sampler's fields, and a port as reset left it has no packet. -/
theorem legal_polledPort {ps : PortState} (h : ps.Legal) (cfg : Config) : (polledPort cfg ps).Legal := by
  obtain ⟨hcnt, hacc, hreset⟩ := h
  refine ⟨hcnt, hacc, fun hclk => ?_⟩
  have hps : ps = PortState.reset := hreset hclk
  rw [polledPort_of_not_ready cfg (by rw [hps]; rfl), hps]

/-- Every stimulus keeps every port legal. -/
theorem legal_portAfter {ps : PortState} (h : ps.Legal) (i : Instr) (p : Port) : (portAfter i p ps).Legal := by
  cases i with
  | sig q c d =>
    obtain rfl | hne := eq_or_ne q p
    · simpa only [portAfter_sig] using legal_samplePort h configuration c d
    · rwa [portAfter_sig_of_ne c d ps hne]
  | poll q =>
    obtain rfl | hne := eq_or_ne q p
    · simpa only [portAfter_poll] using legal_polledPort h configuration
    · rwa [portAfter_poll_of_ne ps hne]
  | reset => exact legal_reset

/-- Every stimulus keeps a legal state legal. -/
theorem legal_exec {i : Instr} {s t : State} (hs : s.Legal) (h : exec i s = .next t) : t.Legal := by
  obtain ⟨hport, -, hfault, -⟩ := exec_next_fields h
  obtain ⟨hlegal, -⟩ := (legal_iff s).mp hs
  exact (legal_iff t).mpr ⟨fun p => hport p ▸ legal_portAfter (hlegal p) i p, hfault⟩

/-- Settles O49: a waiting step and a reserved word change no port, and a stimulus is `legal_exec`. -/
theorem stepKeepsLegalStates : Obligations.StepKeepsLegalStates := by
  intro s t hs h
  obtain ⟨-, ⟨-, rfl⟩ | ⟨w, rest, why, -, -, rfl⟩ | ⟨w, rest, i, -, -, hexec⟩⟩ := step_next_cases h
  · exact hs
  · exact hs
  · exact legal_exec (s := s.setPending rest) hs hexec

/-- Settles O50: both ports are at their reset values, and the machine's configuration passes its check. -/
theorem resetStateIsLegal : Obligations.ResetStateIsLegal :=
  (legal_iff _).mpr ⟨fun p => by cases p <;> exact legal_reset, by simp [State.reset]⟩

/-- Settles O32: power-on by definition, RESET field by field. -/
theorem resetValues : Obligations.ResetValues := by
  refine ⟨fun p => by cases p <;> rfl, rfl, rfl, rfl, fun s t h => ?_⟩
  obtain ⟨hport, hout, hfault, hrefused, -⟩ := exec_next_fields h
  exact ⟨hport, by simpa using hout, hrefused, by simpa using hfault⟩

end Sys2Proof.Proofs
end

section
/-! PROOFS. What CORE never uses cannot be observed (10_state.md R23, R31): every stimulus takes two states that
differ at most there to two such states, by the same branch of its rule. -/

namespace Sys2Proof.Proofs

open Sys2Proof.Machine Sys2Proof.Laws

/-- Two states differ at most in unused bits when every port does and the rest is equal. -/
theorem sameUpToUnused_iff (s t : State) : s.SameUpToUnused t ↔
    (∀ p, (s.port p).SameUpToUnused (t.port p)) ∧
      s.out = t.out ∧ s.fault = t.fault ∧ s.refused = t.refused ∧ s.pending = t.pending :=
  ⟨fun ⟨h1, h2, hrest⟩ => ⟨fun p => by cases p <;> assumption, hrest⟩,
    fun ⟨hport, hrest⟩ => ⟨hport .js1, hport .js2, hrest⟩⟩

/-- A port differs in nothing from itself. -/
theorem sameUpToUnused_refl (ps : PortState) : ps.SameUpToUnused ps :=
  ⟨rfl, rfl, rfl, rfl, fun _ _ => rfl, fun _ => rfl⟩

/-- Shifting the same bit into two accumulators that agree below `n` gives two that agree below `n + 1` (R74). -/
theorem shiftIn_getLsbD_congr {acc acc' : Packet} {n : Nat}
    (hacc : ∀ j < n, acc.getLsbD j = acc'.getLsbD j) (d : Bool) {j : Nat} (hj : j < n + 1) :
    (shiftIn .msbFirst acc d).getLsbD j = (shiftIn .msbFirst acc' d).getLsbD j := by
  rw [shiftIn_msb_getLsbD, shiftIn_msb_getLsbD]
  cases j with
  | zero => rfl
  | succ j => simp [hacc j (by omega)]

section Ports

variable {a b : PortState} (h : a.SameUpToUnused b) (cfg : Config)
include h

/-- A completed packet is the same in both: with 23 bits collected, all its bits are used. -/
theorem shiftIn_congr_of_completes {c : Bool} (hc : completes cfg c a = true) (d : Bool) :
    shiftIn .msbFirst a.acc d = shiftIn .msbFirst b.acc d := by
  obtain ⟨-, -, -, -, hacc, -⟩ := h
  obtain ⟨-, hcnt⟩ := (completes_iff cfg c a).mp hc
  exact BitVec.eq_of_getLsbD_eq fun j hj => shiftIn_getLsbD_congr hacc d (by omega)

/-- SIG cannot tell the two ports apart. -/
theorem sameUpToUnused_samplePort (c d : Bool) :
    (samplePort .msbFirst cfg c d a).SameUpToUnused (samplePort .msbFirst cfg c d b) := by
  have hpacket (hc : completes cfg c a = true) := shiftIn_congr_of_completes h cfg hc d
  obtain ⟨hcnt, hclk, hready, hprev, hacc, hpkt⟩ := h
  have hcompletes := completes_congr hclk hcnt cfg c
  refine ⟨by rw [samplePort_cnt, samplePort_cnt, hcnt, hclk], by simp,
    by rw [samplePort_ready, samplePort_ready, hcompletes, hready], by simpa using hprev, ?_, ?_⟩
  · intro j hj
    rw [samplePort_cnt] at hj
    rw [samplePort_acc, samplePort_acc, ← hclk, ← hcnt]
    by_cases hactive : active cfg.edge a.lastClk c = true
    · by_cases hlt : a.cnt.toNat < 23
      · simp only [hactive, hlt, if_true, BitVec.toNat_ofNat] at hj ⊢
        exact shiftIn_getLsbD_congr hacc d (by omega)
      · simp [hactive, hlt]
    · simp only [hactive] at hj ⊢
      exact hacc j hj
  · rw [samplePort_ready, samplePort_pkt, samplePort_pkt, ← hcompletes]
    cases hc : completes cfg c a with
    | true => exact fun _ => hpacket hc
    | false => exact hpkt

/-- A POLL takes a valid packet from both or from neither. -/
theorem takesValid_eq_of_sameUpToUnused : takesValid cfg a = takesValid cfg b := by
  obtain ⟨-, -, hready, -, -, hpkt⟩ := h
  cases ha : a.ready with
  | true => simp [takesValid, ← hready, ha, hpkt ha]
  | false => simp [takesValid, ← hready, ha]

/-- What a POLL takes from both is the same packet. -/
theorem pkt_congr_of_takesValid (ht : takesValid cfg a = true) : a.pkt = b.pkt := by
  obtain ⟨-, -, -, -, -, hpkt⟩ := h
  exact hpkt ((takesValid_iff cfg a).mp ht).1

/-- POLL cannot tell the two ports apart. -/
theorem sameUpToUnused_polledPort : (polledPort cfg a).SameUpToUnused (polledPort cfg b) := by
  have htakes := takesValid_eq_of_sameUpToUnused h cfg
  have hsame := pkt_congr_of_takesValid h cfg
  obtain ⟨hcnt, hclk, -, hprev, hacc, -⟩ := h
  refine ⟨hcnt, hclk, rfl, ?_, hacc, fun hready => absurd hready Bool.false_ne_true⟩
  rw [polledPort_prev, polledPort_prev, ← htakes, hprev]
  split
  · rw [hsame ‹_›]
  · rfl

/-- POLL emits the same events from both. -/
theorem polledEvents_congr (emitted : Nat) (p : Port) :
    polledEvents cfg emitted p a = polledEvents cfg emitted p b := by
  have hsame := pkt_congr_of_takesValid h cfg
  rw [polledEvents, polledEvents, ← takesValid_eq_of_sameUpToUnused h cfg]
  obtain ⟨-, -, -, hprev, -⟩ := h
  split
  · rw [hsame ‹_›, hprev]
  · rfl

/-- No stimulus can tell the two ports apart. -/
theorem sameUpToUnused_portAfter (i : Instr) (p : Port) : (portAfter i p a).SameUpToUnused (portAfter i p b) := by
  cases i with
  | sig q c d =>
    obtain rfl | hne := eq_or_ne q p
    · simpa only [portAfter_sig] using sameUpToUnused_samplePort h configuration c d
    · simpa only [portAfter_sig_of_ne c d _ hne] using h
  | poll q =>
    obtain rfl | hne := eq_or_ne q p
    · simpa only [portAfter_poll] using sameUpToUnused_polledPort h configuration
    · simpa only [portAfter_poll_of_ne _ hne] using h
  | reset => exact sameUpToUnused_refl _

end Ports

/-- Two states that differ at most in unused bits emit the same events. -/
theorem emittedEvents_congr {s s' : State} (h : s.SameUpToUnused s') (i : Instr) :
    emittedEvents i s = emittedEvents i s' := by
  obtain ⟨hport, hout, -⟩ := (sameUpToUnused_iff s s').mp h
  cases i with
  | sig q c d => rfl
  | poll q => rw [emittedEvents_poll, emittedEvents_poll, hout, polledEvents_congr (hport q)]
  | reset => rfl

/-- Every stimulus keeps two states the same up to unused bits. -/
theorem sameUpToUnused_exec {i : Instr} {s s' t : State} (hs : s.SameUpToUnused s') (h : exec i s = .next t) :
    ∃ t', exec i s' = .next t' ∧ t.SameUpToUnused t' := by
  obtain ⟨hport, hout, hfault, hrefused, hpending⟩ := (sameUpToUnused_iff s s').mp hs
  obtain ⟨t', h'⟩ := exec_answers i (hfault ▸ fault_false_of_exec h)
  obtain ⟨tport, tout, tfault, trefused, tpending⟩ := exec_next_fields h
  obtain ⟨tport', tout', tfault', trefused', tpending'⟩ := exec_next_fields h'
  refine ⟨t', h', (sameUpToUnused_iff t t').mpr ⟨fun p => ?_, ?_, ?_, ?_, ?_⟩⟩
  · rw [tport, tport']
    exact sameUpToUnused_portAfter (hport p) i p
  · rw [tout, tout', hout, emittedEvents_congr hs]
  · rw [tfault, tfault']
  · rw [trefused, trefused', hrefused]
  · rw [tpending, tpending', hpending]

/-- Putting one list of words into both queues adds no difference. -/
theorem sameUpToUnused_setPending {s s' : State} (h : s.SameUpToUnused s') (words : List StimWord) :
    (s.setPending words).SameUpToUnused (s'.setPending words) := by
  obtain ⟨h1, h2, hout, hfault, hrefused, -⟩ := h
  exact ⟨h1, h2, hout, hfault, hrefused, rfl⟩

/-- Marking both states as refused adds no difference. -/
theorem sameUpToUnused_setRefused {s s' : State} (h : s.SameUpToUnused s') :
    s.setRefused.SameUpToUnused s'.setRefused := by
  obtain ⟨h1, h2, hout, hfault, -, hpending⟩ := h
  exact ⟨h1, h2, hout, hfault, rfl, hpending⟩

/-- Settles O52: the queues are equal, so both steps wait, refuse the same word or apply the same stimulus. -/
theorem unusedBitsAreUnobservable : Obligations.UnusedBitsAreUnobservable := by
  intro s s' t hs h
  obtain ⟨-, -, hfault, -, hpending⟩ := (sameUpToUnused_iff s s').mp hs
  obtain ⟨hf, ⟨hempty, rfl⟩ | ⟨w, rest, why, hword, hd, rfl⟩ | ⟨w, rest, i, hword, hd, hexec⟩⟩ := step_next_cases h
  · exact ⟨s', step_nil (hfault ▸ hf) (hpending ▸ hempty), hs⟩
  · exact ⟨_, step_reserved w rest why (hfault ▸ hf) (hpending ▸ hword) hd,
      sameUpToUnused_setRefused (sameUpToUnused_setPending hs rest)⟩
  · rw [step_stimulus w rest i (hpending ▸ hword) hd]
    exact sameUpToUnused_exec (sameUpToUnused_setPending hs rest) hexec

end Sys2Proof.Proofs
end

section
/-! PROOFS. The read and write sets of the stimuli (10_state.md R32). -/

namespace Sys2Proof.Proofs

open Sys2Proof.Machine Sys2Proof.Laws

/-! ### Nothing outside the write set changes -/

/-- SIG writes the sampler's fields and the handoff of its own port alone (R77). -/
theorem sig_frame {q : Port} {c d : Bool} {s t : State} (h : exec (.sig q c d) s = .next t) {f : Field}
    (hf : f ∉ writeSet (.sig q c d)) : sameField f t s := by
  obtain ⟨hport, hout, hfault, hrefused, -⟩ := exec_next_fields h
  cases f with
  | prev p =>
    obtain rfl | hne := eq_or_ne q p
    · simp [sameField, hport]
    · rw [sameField, hport, portAfter_sig_of_ne c d _ hne]
  | acc p | cnt p | lastClk p | pkt p | ready p =>
    have hne : q ≠ p := by simpa [writeSet, eq_comm] using hf
    rw [sameField, hport, portAfter_sig_of_ne c d _ hne]
  | out => simpa using hout
  | fault => rw [sameField, hfault, fault_false_of_exec h]
  | refused => exact hrefused

/-- POLL writes the flag and the bitmap of its own port, and `OUT` (R108). -/
theorem poll_frame {q : Port} {s t : State} (h : exec (.poll q) s = .next t) {f : Field}
    (hf : f ∉ writeSet (.poll q)) : sameField f t s := by
  obtain ⟨hport, -, hfault, hrefused, -⟩ := exec_next_fields h
  cases f with
  | acc p | cnt p | lastClk p | pkt p =>
    obtain rfl | hne := eq_or_ne q p
    · simp [sameField, hport]
    · rw [sameField, hport, portAfter_poll_of_ne _ hne]
  | ready p | prev p =>
    have hne : q ≠ p := by simpa [writeSet, eq_comm] using hf
    rw [sameField, hport, portAfter_poll_of_ne _ hne]
  | out => simp [writeSet] at hf
  | fault => rw [sameField, hfault, fault_false_of_exec h]
  | refused => exact hrefused

/-- Every field of a port is in RESET's write set (R140). -/
theorem mem_writeSet_reset {f : Field} {p : Port} (hf : f ∈ portFields p) : f ∈ writeSet .reset := by
  cases p <;> simp [writeSet, hf]

/-- RESET leaves `OUT` and `REFUSED` (R140). -/
theorem reset_frame {s t : State} (h : exec .reset s = .next t) {f : Field} (hf : f ∉ writeSet .reset) :
    sameField f t s := by
  obtain ⟨-, hout, -, hrefused, -⟩ := exec_next_fields h
  cases f with
  | acc p | cnt p | lastClk p | pkt p | ready p | prev p =>
    exact absurd (mem_writeSet_reset (p := p) (by simp [portFields])) hf
  | out => simpa using hout
  | fault => simp [writeSet] at hf
  | refused => exact hrefused

/-! ### What is written depends on the read set alone -/

/-- SIG: the sampler's fields of the two runs come out equal, and the packet and its flag do when a packet is
completed, which happens in both runs or in neither. -/
theorem sig_writes_congr {q : Port} {c d : Bool} {s s' t t' : State} (h : exec (.sig q c d) s = .next t)
    (h' : exec (.sig q c d) s' = .next t') (hread : ∀ f ∈ readSet (.sig q c d), sameField f s s')
    {f : Field} (hf : f ∈ writeSet (.sig q c d)) : sameField f t t' ∨ (sameField f t s ∧ sameField f t' s') := by
  obtain ⟨hport, -⟩ := exec_next_fields h
  obtain ⟨hport', -⟩ := exec_next_fields h'
  obtain ⟨hclk, hcnt, hacc, -⟩ : (s.port q).lastClk = (s'.port q).lastClk ∧ (s.port q).cnt = (s'.port q).cnt ∧
      (s.port q).acc = (s'.port q).acc ∧ s.fault = s'.fault := by simpa [readSet] using hread
  have hcompletes := completes_congr hclk hcnt configuration c
  have hcases : f = .lastClk q ∨ f = .acc q ∨ f = .cnt q ∨ f = .pkt q ∨ f = .ready q := by
    simpa [writeSet] using hf
  obtain rfl | rfl | rfl | rfl | rfl := hcases
  · exact .inl (by simp [sameField, hport, hport'])
  · exact .inl (by simp only [sameField, hport, hport', portAfter_sig, samplePort_acc, hclk, hcnt, hacc])
  · exact .inl (by simp only [sameField, hport, hport', portAfter_sig, samplePort_cnt, hclk, hcnt])
  · simp only [sameField, hport, hport', portAfter_sig, samplePort_pkt, ← hcompletes, ← hacc]
    cases completes configuration c (s.port q) <;> simp
  · simp only [sameField, hport, hport', portAfter_sig, samplePort_ready, ← hcompletes]
    cases completes configuration c (s.port q) <;> simp

/-- POLL: both runs take the same packet, or neither takes one. -/
theorem poll_writes_congr {q : Port} {s s' t t' : State} (h : exec (.poll q) s = .next t)
    (h' : exec (.poll q) s' = .next t') (hread : ∀ f ∈ readSet (.poll q), sameField f s s') :
    (∀ f ∈ writeSet (.poll q), f ≠ .out → sameField f t t') ∧
      (emittedEvents (.poll q) s).Perm (emittedEvents (.poll q) s') := by
  obtain ⟨hport, -⟩ := exec_next_fields h
  obtain ⟨hport', -⟩ := exec_next_fields h'
  obtain ⟨hready, hpkt, hprev, -⟩ : (s.port q).ready = (s'.port q).ready ∧ (s.port q).pkt = (s'.port q).pkt ∧
      (s.port q).prev = (s'.port q).prev ∧ s.fault = s'.fault := by simpa [readSet] using hread
  have htakes := takesValid_congr hready hpkt configuration
  constructor
  · intro f hf hout
    obtain rfl | rfl : f = .ready q ∨ f = .prev q := by simpa [writeSet, hout] using hf
    · simp [sameField, hport, hport']
    · simp only [sameField, hport, hport', portAfter_poll, polledPort_prev, htakes, hpkt, hprev]
  · have hperm := polledEvents_perm configuration s.out.length q (s.port q)
    rw [htakes, hpkt, hprev] at hperm
    exact hperm.trans (polledEvents_perm configuration s'.out.length q (s'.port q)).symm

/-- RESET reads nothing: what it writes is the same in both runs. -/
theorem reset_writes_congr {s s' t t' : State} (h : exec .reset s = .next t) (h' : exec .reset s' = .next t')
    {f : Field} (hf : f ∈ writeSet .reset) : sameField f t t' := by
  obtain ⟨hport, -, hfault, -⟩ := exec_next_fields h
  obtain ⟨hport', -, hfault', -⟩ := exec_next_fields h'
  cases f with
  | acc p | cnt p | lastClk p | pkt p | ready p | prev p => simp [sameField, hport, hport']
  | fault => rw [sameField, hfault, hfault']
  | out | refused => simp [writeSet, portFields] at hf

/-- Settles O44: the frame and the two-run law of each stimulus. -/
theorem stimuliKeepToTheirFootprint : Obligations.StimuliKeepToTheirFootprint := by
  constructor
  · intro i s t h
    obtain ⟨-, -, -, -, hpending⟩ := exec_next_fields h
    refine ⟨hpending, fun f hf => ?_⟩
    cases i with
    | sig q c d => exact sig_frame h hf
    | poll q => exact poll_frame h hf
    | reset => exact reset_frame h hf
  · intro i s s' t t' h h' hread
    obtain ⟨-, hout, -⟩ := exec_next_fields h
    obtain ⟨-, hout', -⟩ := exec_next_fields h'
    cases i with
    | sig q c d =>
      exact ⟨fun f hf _ => sig_writes_congr h h' hread hf, _, _, hout, hout', List.Perm.refl _⟩
    | poll q =>
      obtain ⟨hwrites, hevents⟩ := poll_writes_congr h h' hread
      exact ⟨fun f hf hne => .inl (hwrites f hf hne), _, _, hout, hout', hevents⟩
    | reset =>
      exact ⟨fun f hf _ => .inl (reset_writes_congr h h' hf), _, _, hout, hout', List.Perm.refl _⟩

end Sys2Proof.Proofs
end

section
/-! PROOFS. The handoff flag (10_state.md R25), the held bitmap (R26) and the output stream (R27, R111). -/

namespace Sys2Proof.Proofs

open Sys2Proof.Machine Sys2Proof.Laws Sys2Proof.Claims

/-! ### The flag `READY` -/

/-- The captures on port `p` are the SIGs of `p` that complete a packet (R75). -/
theorem captures_iff (i : Instr) (s : State) (p : Port) (v : Packet) :
    captures i s p v ↔ ∃ c d, i = .sig p c d ∧ completes configuration c (s.port p) = true ∧
      v = shiftIn .msbFirst (s.port p).acc d := by
  simp only [completes_iff, active_configuration_iff]
  constructor
  · rintro ⟨d, rfl, hclk, hcnt, rfl⟩
    exact ⟨false, d, rfl, ⟨⟨hclk, rfl⟩, hcnt⟩, rfl⟩
  · rintro ⟨c, d, rfl, ⟨⟨hclk, rfl⟩, hcnt⟩, rfl⟩
    exact ⟨d, rfl, hclk, hcnt, rfl⟩

/-- R25: the flag after a stimulus, in terms of what the stimulus does on the port. -/
theorem portAfter_ready_iff (i : Instr) (p : Port) (ps : PortState) :
    (portAfter i p ps).ready = true ↔
      (∃ c d, i = .sig p c d ∧ completes configuration c ps = true) ∨
      (ps.ready = true ∧ i ≠ .poll p ∧ i ≠ .reset) := by
  cases i with
  | sig q c d =>
    obtain rfl | hne := eq_or_ne q p
    · simp [samplePort_ready]
    · simp [portAfter_sig_of_ne c d ps hne, hne]
  | poll q =>
    obtain rfl | hne := eq_or_ne q p
    · simp
    · simp [portAfter_poll_of_ne ps hne, hne]
  | reset => simp [PortState.reset]

/-- A capture leaves the completed packet in the buffer. -/
theorem portAfter_pkt_of_completes {p : Port} {c d : Bool} {ps : PortState}
    (hc : completes configuration c ps = true) :
    (portAfter (.sig p c d) p ps).pkt = shiftIn .msbFirst ps.acc d := by
  rw [portAfter_sig, samplePort_pkt, if_pos hc]

/-- Settles O45: each clause is read off `portAfter_ready_iff`. -/
theorem readyFlagDiscipline : Obligations.ReadyFlagDiscipline := by
  intro i s t p h
  obtain ⟨hport, -⟩ := exec_next_fields h
  have hready := portAfter_ready_iff i p (s.port p)
  rw [← hport] at hready
  refine ⟨fun hs ht => ?_, fun hs ht => ?_, fun v hv => ?_, fun _ hi => ?_, fun hi => ?_⟩
  · obtain ⟨c, d, rfl, hc⟩ | ⟨hset, -⟩ := hready.mp ht
    · rw [captures_iff, hport]
      exact ⟨c, d, rfl, hc, portAfter_pkt_of_completes hc⟩
    · simp [hs] at hset
  · by_contra hi
    push Not at hi
    simp [hready.mpr (.inr ⟨hs, hi⟩)] at ht
  · obtain ⟨c, d, hi, hc, -⟩ := (captures_iff i s p v).mp hv
    exact hready.mpr (.inl ⟨c, d, hi, hc⟩)
  · rw [hport, hi, portAfter_poll, polledPort_ready]
  · rw [hport, hi, portAfter_reset, PortState.reset]

/-! ### The held bitmap `PREV` -/

/-- R26: the bitmap after a stimulus. -/
theorem portAfter_prev (i : Instr) (p : Port) (ps : PortState) :
    (portAfter i p ps).prev =
      if i = .reset then 0#14
      else if i = .poll p ∧ takesValid configuration ps = true then mapPacket configuration ps.pkt
      else ps.prev := by
  cases i with
  | sig q c d =>
    obtain rfl | hne := eq_or_ne q p
    · simp
    · simp [portAfter_sig_of_ne c d ps hne]
  | poll q =>
    obtain rfl | hne := eq_or_ne q p
    · simp [polledPort_prev]
    · simp [portAfter_poll_of_ne ps hne, hne]
  | reset => rfl

/-- Settles O47: `portAfter_prev` in both directions. -/
theorem prevIsTheLastValidBitmap : Obligations.PrevIsTheLastValidBitmap := by
  constructor
  · intro i s t p h hchanged
    obtain ⟨hport, -⟩ := exec_next_fields h
    rw [hport] at hchanged ⊢
    rw [portAfter_prev] at hchanged ⊢
    by_cases hreset : i = .reset
    · exact .inr ⟨hreset, if_pos hreset⟩
    · rw [if_neg hreset] at hchanged ⊢
      split at hchanged
      case isTrue htakes =>
        obtain ⟨hready, hvalid⟩ := (takesValid_iff _ _).mp htakes.2
        exact .inl ⟨htakes.1, hready, hvalid, if_pos htakes⟩
      case isFalse => exact absurd rfl hchanged
  · intro s t p h hready hvalid
    obtain ⟨hport, -⟩ := exec_next_fields h
    rw [hport, portAfter_poll, polledPort_prev, if_pos ((takesValid_iff _ _).mpr ⟨hready, hvalid⟩)]

/-! ### The output stream `OUT` -/

/-- A POLL that emits anything emits its packet's events, in some order. -/
theorem polledEvents_perm_of_ne_nil {cfg : Config} {emitted : Nat} {p : Port} {ps : PortState}
    (h : polledEvents cfg emitted p ps ≠ []) :
    (polledEvents cfg emitted p ps).Perm (events cfg p (mapPacket cfg ps.pkt) ps.prev) := by
  have htakes : takesValid cfg ps = true := by
    by_contra htakes
    simp [polledEvents, htakes] at h
  simpa [htakes] using polledEvents_perm cfg emitted p ps

/-- Only a POLL emits events (R111). -/
theorem emittedEvents_perm_of_ne_nil {i : Instr} {s : State} (h : emittedEvents i s ≠ []) :
    ∃ p, i = .poll p ∧ (emittedEvents i s).Perm
      (events configuration p (mapPacket configuration (s.port p).pkt) (s.port p).prev) := by
  cases i with
  | sig q c d => exact absurd rfl h
  | poll q => exact ⟨q, rfl, polledEvents_perm_of_ne_nil h⟩
  | reset => exact absurd rfl h

/-- Settles O48: a stimulus appends `emittedEvents`, a waiting step and a reserved word append nothing. -/
theorem outputStreamIsAppendOnly : Obligations.OutputStreamIsAppendOnly := by
  constructor
  · intro i s t h
    obtain ⟨-, hout, -, hrefused, -⟩ := exec_next_fields h
    exact ⟨⟨_, hout, emittedEvents_perm_of_ne_nil⟩, hrefused⟩
  · intro s t h
    obtain ⟨-, ⟨-, rfl⟩ | ⟨w, rest, why, -, -, rfl⟩ | ⟨w, rest, i, -, -, hexec⟩⟩ := step_next_cases h
    · exact ⟨⟨[], List.append_nil _⟩, id⟩
    · exact ⟨⟨[], List.append_nil _⟩, fun _ => rfl⟩
    · obtain ⟨-, hout, -, hrefused, -⟩ := exec_next_fields hexec
      exact ⟨⟨_, hout.symm⟩, fun hs => hrefused.trans hs⟩

end Sys2Proof.Proofs
end

section
/-! PROOFS. The two-byte form of a bitmap (20_memory.md R42), read bit by bit. -/

namespace Sys2Proof.Proofs

open Sys2Proof.Machine

theorem bitmapByte0_getLsbD (b : Bitmap) (i : Nat) :
    (bitmapByte0 b).getLsbD i = (decide (i < 8) && b.getLsbD i) := by
  simp [bitmapByte0]

theorem bitmapByte1_getLsbD (b : Bitmap) (i : Nat) :
    (bitmapByte1 b).getLsbD i = (decide (i < 6) && b.getLsbD (8 + i)) := by
  have happend : (bitmapByte1 b).getLsbD i =
      if i < 6 then (b.extractLsb' 8 6).getLsbD i else (0#2).getLsbD (i - 6) := BitVec.getLsbD_append
  rw [happend]
  by_cases hi : i < 6 <;> simp [hi]

theorem bitmapOfBytes_getLsbD (byte0 byte1 : BitVec 8) (i : Nat) :
    (bitmapOfBytes byte0 byte1).getLsbD i =
      if i < 8 then byte0.getLsbD i else decide (i - 8 < 6) && byte1.getLsbD (i - 8) := by
  have happend : (bitmapOfBytes byte0 byte1).getLsbD i =
      if i < 8 then byte0.getLsbD i else (byte1.extractLsb' 0 6).getLsbD (i - 8) := BitVec.getLsbD_append
  rw [happend, BitVec.getLsbD_extractLsb', Nat.zero_add]

/-- The two bytes of a bitmap give it back: a bit below 8 is in byte 0, the others are in byte 1. -/
theorem bitmapOfBytes_bytes (b : Bitmap) : bitmapOfBytes (bitmapByte0 b) (bitmapByte1 b) = b := by
  refine BitVec.eq_of_getLsbD_eq fun i hi => ?_
  rw [bitmapOfBytes_getLsbD, bitmapByte0_getLsbD, bitmapByte1_getLsbD]
  by_cases hlow : i < 8
  · simp [hlow]
  · have hhigh : i - 8 < 6 := by omega
    have hbit : 8 + (i - 8) = i := by omega
    simp [hlow, hhigh, hbit]

/-- Settles O5: each byte bit by bit, and the round trip. -/
theorem bitmapTwoByteForm : Obligations.BitmapTwoByteForm := by
  refine fun b => ⟨fun i hi => ?_, fun i hi => ?_, bitmapByte1_getLsbD b 6, bitmapByte1_getLsbD b 7,
    bitmapOfBytes_bytes b⟩
  · rw [bitmapByte0_getLsbD, decide_eq_true hi, Bool.true_and]
  · rw [bitmapByte1_getLsbD, decide_eq_true hi, Bool.true_and]

end Sys2Proof.Proofs
end

section
/-! PROOFS. Forward progress (20_memory.md R48) and the handoff of a packet (R45, R47): only a capture fills the
packet buffer, and a POLL of a port with no packet to take does nothing. -/

namespace Sys2Proof.Proofs

open Sys2Proof.Machine Sys2Proof.Laws Sys2Proof.Claims

/-! ### Every step answers -/

/-- Settles O41: every stimulus is well-formed, so the premise on it is not needed. -/
theorem stepRunsTheDecodedStimulus : Obligations.StepRunsTheDecodedStimulus :=
  fun _ w rest i hword hd _ => step_stimulus w rest i hword hd

/-- A step answers a next state from every state without a fault: waiting, at a reserved word, at a stimulus. -/
theorem step_answers {s : State} (hfault : s.fault = false) : ∃ t, step s = .next t := by
  rcases hword : s.pending with _ | ⟨w, rest⟩
  · exact ⟨s, step_nil hfault hword⟩
  · rcases hd : decode w with i | why
    · rw [step_stimulus w rest i hword hd]
      exact exec_answers i (s := s.setPending rest) hfault
    · exact ⟨_, step_reserved w rest why hfault hword hd⟩

/-- No step is refused: with a fault it is the fault, without one it answers. -/
theorem step_ne_refused (s : State) (r : Refusal) : step s ≠ .refused r := by
  cases hfault : s.fault with
  | true => simp [step_fault hfault]
  | false =>
    obtain ⟨t, ht⟩ := step_answers hfault
    simp [ht]

/-- Settles O43. -/
theorem everyFaultFreeStateHasAStep : Obligations.EveryFaultFreeStateHasAStep :=
  ⟨fun _ => step_answers, fun _ i => exec_answers i, step_ne_refused⟩

/-! ### The packet buffer `PKT` -/

/-- R47: the packet buffer changes at a SIG that completes a packet, and at RESET. -/
theorem portAfter_pkt_cases (i : Instr) (p : Port) (ps : PortState) :
    (∃ c d, i = .sig p c d ∧ completes configuration c ps = true) ∨ i = .reset ∨
      (portAfter i p ps).pkt = ps.pkt := by
  cases i with
  | sig q c d =>
    obtain rfl | hne := eq_or_ne q p
    · by_cases hc : completes configuration c ps = true
      · exact .inl ⟨c, d, rfl, hc⟩
      · exact .inr (.inr (by rw [portAfter_sig, samplePort_pkt, if_neg hc]))
    · exact .inr (.inr (by rw [portAfter_sig_of_ne c d ps hne]))
  | poll q =>
    obtain rfl | hne := eq_or_ne q p
    · exact .inr (.inr (by rw [portAfter_poll, polledPort_pkt]))
    · exact .inr (.inr (by rw [portAfter_poll_of_ne ps hne]))
  | reset => exact .inr (.inl rfl)

/-- R75: a capture of `v` leaves `v` in the packet buffer and sets the flag. -/
theorem pkt_ready_of_captures {i : Instr} {s t : State} {p : Port} {v : Packet} (h : exec i s = .next t)
    (hv : captures i s p v) : (t.port p).pkt = v ∧ (t.port p).ready = true := by
  obtain ⟨hport, -⟩ := exec_next_fields h
  obtain ⟨c, d, rfl, hc, rfl⟩ := (captures_iff i s p v).mp hv
  rw [hport]
  exact ⟨portAfter_pkt_of_completes hc, (portAfter_ready_iff _ _ _).mpr (.inl ⟨c, d, rfl, hc⟩)⟩

/-- Settles O46: the two stimuli that `portAfter_pkt_cases` leaves, and `pkt_ready_of_captures`. -/
theorem packetBufferChangesOnlyAtCapture : Obligations.PacketBufferChangesOnlyAtCapture := by
  refine ⟨fun i s t p h hchanged => ?_, fun i s t p v => pkt_ready_of_captures⟩
  obtain ⟨hport, -⟩ := exec_next_fields h
  obtain ⟨c, d, hi, hc⟩ | rfl | hsame := portAfter_pkt_cases i p (s.port p)
  · have hcap := (captures_iff i s p _).mpr ⟨c, d, hi, hc, rfl⟩
    obtain ⟨hpkt, hready⟩ := pkt_ready_of_captures h hcap
    exact .inl ⟨hpkt ▸ hcap, hready⟩
  · exact .inr ⟨rfl, by rw [hport, portAfter_reset, PortState.reset]⟩
  · exact absurd ((hport p).symm ▸ hsame) hchanged

/-! ### A POLL with no packet to take -/

/-- The state in which a POLL of `p` finds no packet and answers. -/
def NothingToTake (p : Port) (s : State) : Prop := s.fault = false ∧ (s.port p).ready = false

/-- R108: a POLL that finds no packet does nothing. -/
theorem exec_poll_of_nothingToTake {p : Port} {s : State} (h : NothingToTake p s) : exec (.poll p) s = .next s := by
  obtain ⟨hfault, hready⟩ := h
  refine (execPoll_next_iff p s s).mpr ⟨hfault, ?_⟩
  rw [pollState, if_neg (by simp [hready])]

/-- R108: a POLL leaves no packet to take. -/
theorem nothingToTake_of_poll {p : Port} {s t : State} (h : exec (.poll p) s = .next t) : NothingToTake p t := by
  obtain ⟨hport, -, hfault, -⟩ := exec_next_fields h
  exact ⟨hfault, by rw [hport, portAfter_poll, polledPort_ready]⟩

/-- Settles O26: the first POLL leaves no packet to take. -/
theorem secondPollDoesNothing : Obligations.SecondPollDoesNothing :=
  fun _ _ _ h => exec_poll_of_nothingToTake (nothingToTake_of_poll h)

/-- R25: a stimulus that captures nothing on `p` brings no packet to take there. -/
theorem nothingToTake_of_exec {p : Port} {i : Instr} {s t : State} (hs : NothingToTake p s) (h : exec i s = .next t)
    (hcap : ∀ v, ¬ captures i s p v) : NothingToTake p t := by
  obtain ⟨-, hready⟩ := hs
  obtain ⟨-, -, hfault, -⟩ := exec_next_fields h
  obtain ⟨hset, -⟩ := readyFlagDiscipline i s t p h
  exact ⟨hfault, Bool.eq_false_iff.mpr fun ht => hcap _ (hset hready ht)⟩

/-- Whether a stimulus is a capture does not depend on the words that wait. -/
theorem captures_setPending (i : Instr) (s : State) (rest : List StimWord) (p : Port) (v : Packet) :
    captures i (s.setPending rest) p v ↔ captures i s p v := by
  rw [captures, captures, setPending_port]

/-- A step without a capture on `p` brings no packet to take there. -/
theorem nothingToTake_of_stepWithoutCapture {p : Port} {s t : State} (hs : NothingToTake p s)
    (h : stepWithoutCapture p s t) : NothingToTake p t := by
  obtain ⟨hstep, hcap⟩ := h
  have htaken (rest : List StimWord) : NothingToTake p (s.setPending rest) := by
    rwa [NothingToTake, setPending_port]
  obtain ⟨-, ⟨-, rfl⟩ | ⟨w, rest, why, -, -, rfl⟩ | ⟨w, rest, i, hword, hd, hexec⟩⟩ := step_next_cases hstep
  · exact hs
  · rw [NothingToTake, setRefused_port]
    exact htaken rest
  · refine nothingToTake_of_exec (htaken rest) hexec fun v hv => ?_
    exact hcap w rest i v hword hd ((captures_setPending i s rest p v).mp hv)

/-- Settles O53, by induction on the steps between the two POLLs. -/
theorem packetIsTakenAtMostOnce : Obligations.PacketIsTakenAtMostOnce := by
  intro p s t u h hsteps
  refine exec_poll_of_nothingToTake ?_
  induction hsteps with
  | refl => exact nothingToTake_of_poll h
  | tail _ hstep ih => exact nothingToTake_of_stepWithoutCapture ih hstep

end Sys2Proof.Proofs
end

section
/-! PROOFS. The stimulus decoder and encoder (30_encoding.md R60 to R64): every word is the encoding of a stimulus
or falls under a clause of R64, and the decoder tells which. -/

namespace Sys2Proof.Proofs

open Sys2Proof.Machine Sys2Proof.Laws

/-! ### A word is its fields (R60) -/

/-- A one-bit field is its bit. -/
theorem extractLsb'_one {n : Nat} (w : BitVec n) (i : Nat) : w.extractLsb' i 1 = BitVec.ofBool (w.getLsbD i) := by
  refine BitVec.eq_of_getLsbD_eq fun j hj => ?_
  obtain rfl : j = 0 := by omega
  simp

theorem portBit_portField (w : StimWord) : portBit (portField w) = w.getLsbD 2 := by
  rw [portField]
  cases w.getLsbD 2 <;> rfl

theorem clsField_append_zField (w : StimWord) : clsField w ++ zField w = w.extractLsb' 3 5 :=
  BitVec.extractLsb'_append_extractLsb'_eq_extractLsb' rfl

/-- The bits above a two-bit operand field. -/
theorem append_portBit (w : StimWord) :
    clsField w ++ zField w ++ BitVec.ofBool (portBit (portField w)) = w.extractLsb' 2 6 := by
  rw [clsField_append_zField, portBit_portField, ← extractLsb'_one]
  exact BitVec.extractLsb'_append_extractLsb'_eq_extractLsb' rfl

theorem append_clockField (w : StimWord) :
    clsField w ++ zField w ++ BitVec.ofBool (portBit (portField w)) ++ BitVec.ofBool (clockField w) =
      w.extractLsb' 1 7 := by
  rw [append_portBit, clockField, ← extractLsb'_one]
  exact BitVec.extractLsb'_append_extractLsb'_eq_extractLsb' rfl

/-- The fields of a SIG word, in order. -/
theorem append_dataField (w : StimWord) :
    clsField w ++ zField w ++ BitVec.ofBool (portBit (portField w)) ++ BitVec.ofBool (clockField w) ++
      BitVec.ofBool (dataField w) = w := by
  rw [append_clockField, dataField, ← extractLsb'_one]
  exact (BitVec.extractLsb'_append_extractLsb'_eq_extractLsb' rfl).trans BitVec.extractLsb'_eq_self

/-- The fields of a POLL word, in order. -/
theorem append_extract_two (w : StimWord) :
    clsField w ++ zField w ++ BitVec.ofBool (portBit (portField w)) ++ w.extractLsb' 0 2 = w := by
  rw [append_portBit]
  exact (BitVec.extractLsb'_append_extractLsb'_eq_extractLsb' rfl).trans BitVec.extractLsb'_eq_self

/-- The fields of a RESET word, in order. -/
theorem append_extract_three (w : StimWord) : clsField w ++ zField w ++ w.extractLsb' 0 3 = w := by
  rw [clsField_append_zField]
  exact (BitVec.extractLsb'_append_extractLsb'_eq_extractLsb' rfl).trans BitVec.extractLsb'_eq_self

theorem clsField_cases (w : StimWord) :
    clsField w = 0#2 ∨ clsField w = 1#2 ∨ clsField w = 2#2 ∨ clsField w = 3#2 := by
  generalize clsField w = cls
  revert cls
  decide

/-! ### What the decoder answers -/

/-- The four clauses of R64. -/
def IsReserved (w : StimWord) : Prop :=
  clsField w = 3#2 ∨ zField w ≠ 0#3 ∨ (clsField w = 1#2 ∧ w.extractLsb' 0 2 ≠ 0#2) ∨
    (clsField w = 2#2 ∧ w.extractLsb' 0 3 ≠ 0#3)

/-- Everything the decoder can answer: a stimulus whose encoding the word is, or the mark of a reserved word. -/
theorem decode_cases (w : StimWord) :
    (¬ IsReserved w ∧ ∃ i, w = encode i ∧ decode w = .stimulus i) ∨
      (IsReserved w ∧ ∃ why, decode w = .reserved why) := by
  by_cases hz : zField w = 0#3
  · obtain hcls | hcls | hcls | hcls := clsField_cases w
    · refine .inl ⟨by simp [IsReserved, hcls, hz], .sig (portField w) (clockField w) (dataField w), ?_,
        by simp [decode, hcls, hz]⟩
      have hword := (append_dataField w).symm
      rwa [hcls, hz] at hword
    · by_cases hlow : w.extractLsb' 0 2 = 0#2
      · refine .inl ⟨by simp [IsReserved, hcls, hz, hlow], .poll (portField w), ?_,
          by simp [decode, hcls, hz, hlow]⟩
        have hword := (append_extract_two w).symm
        rwa [hcls, hz, hlow] at hword
      · exact .inr ⟨by simp [IsReserved, hcls, hlow], .pollOperandSet, by simp [decode, hcls, hz, hlow]⟩
    · by_cases hlow : w.extractLsb' 0 3 = 0#3
      · refine .inl ⟨by simp [IsReserved, hcls, hz, hlow], .reset, ?_, by simp [decode, hcls, hz, hlow]⟩
        have hword := (append_extract_three w).symm
        rwa [hcls, hz, hlow] at hword
      · exact .inr ⟨by simp [IsReserved, hcls, hlow], .resetOperandSet, by simp [decode, hcls, hz, hlow]⟩
    · exact .inr ⟨.inl hcls, .classReserved, by simp [decode, hcls]⟩
  · by_cases hcls : clsField w = 3#2
    · exact .inr ⟨.inl hcls, .classReserved, by simp [decode, hcls]⟩
    · exact .inr ⟨.inr (.inl hz), .zeroFieldSet, by simp [decode, hcls, hz]⟩

/-- R61 to R63: the encoding of a stimulus is read as that stimulus. -/
theorem decode_encode (i : Instr) : decode (encode i) = .stimulus i := by
  cases i with
  | sig p c d => cases p <;> cases c <;> cases d <;> rfl
  | poll p => cases p <;> rfl
  | reset => rfl

/-- Settles O1: a word read as a stimulus is its encoding by `decode_cases`, and `decode_encode`. -/
theorem decodeIsInverseOfEncode : Obligations.DecodeIsInverseOfEncode := by
  refine fun w i => ⟨fun hd => ?_, fun hw => hw ▸ decode_encode i⟩
  obtain ⟨-, j, hw, hj⟩ | ⟨-, why, hwhy⟩ := decode_cases w
  · obtain rfl : i = j := by simpa [hd] using hj
    exact hw
  · simp [hd] at hwhy

/-- Settles O2: each word is the encoding of the stimulus it spells. -/
theorem specWordsDecode : Obligations.SpecWordsDecode :=
  ⟨decode_encode (.sig .js1 false false), decode_encode (.sig .js1 true true), decode_encode (.sig .js2 false true),
    decode_encode (.poll .js1), decode_encode (.poll .js2), decode_encode .reset⟩

/-! ### Reserved words (R64) -/

theorem decode_reserved_iff (w : StimWord) : (∃ why, decode w = .reserved why) ↔ IsReserved w := by
  obtain ⟨hnot, i, -, hd⟩ | ⟨hres, why, hd⟩ := decode_cases w
  · simp [hd, hnot]
  · simp [hd, hres]

/-- Settles O3: the clauses are those of `decode_cases`, the count is evaluated on the 256 words, and the effect is
`step_reserved`; that the mark stays is the last part of `outputStreamIsAppendOnly`. -/
theorem reservedWordsOnlySetRefused : Obligations.ReservedWordsOnlySetRefused := by
  refine ⟨decode_reserved_iff, by decide +kernel, fun _ => step_reserved, fun s t hs hstep => ?_⟩
  obtain ⟨-, hkept⟩ := outputStreamIsAppendOnly
  obtain ⟨-, hrefused⟩ := hkept s t hstep
  exact ⟨hrefused hs, fun ⟨_, hlive⟩ => by simp [hrefused hs] at hlive⟩

end Sys2Proof.Proofs
end

section
/-! PROOFS. The event word (30_encoding.md R56, R57): its three fields determine the word, and the two fields of a
symbol determine the symbol. -/

namespace Sys2Proof.Proofs

open Sys2Proof.Machine

/-! ### The two fields of a symbol -/

/-- The kind bit `E[8]` of a symbol. -/
def symbolKind : Symbol → Bool
  | .char _ _ => false
  | .named _ => true

/-- The field `E[7:0]` of a symbol. -/
def symbolCode : Symbol → BitVec 8
  | .char code _ => code
  | .named k => BitVec.ofNat 8 (keyIndex k)

theorem symbolField_eq (sym : Symbol) : symbolField sym = BitVec.ofBool (symbolKind sym) ++ symbolCode sym := by
  cases sym <;> rfl

theorem keyIndex_le (k : NamedKey) : keyIndex k ≤ 8 := by
  cases k <;> decide

theorem toNat_ofNat_keyIndex (k : NamedKey) : (BitVec.ofNat 8 (keyIndex k)).toNat = keyIndex k := by
  cases k <;> rfl

theorem keyOfIndex_keyIndex (k : NamedKey) : keyOfIndex (keyIndex k) = some k := by
  cases k <;> rfl

theorem keyOfIndex_eq_some_iff (n : Nat) (k : NamedKey) : keyOfIndex n = some k ↔ n = keyIndex k := by
  constructor
  · intro h
    unfold keyOfIndex at h
    split at h <;> cases h <;> rfl
  · rintro rfl
    exact keyOfIndex_keyIndex k

/-- A kind bit and a field are read as a symbol exactly when they are that symbol's. -/
theorem symbolOfField_eq_some_iff (named : Bool) (field : BitVec 8) (sym : Symbol) :
    symbolOfField named field = some sym ↔ named = symbolKind sym ∧ field = symbolCode sym := by
  cases named with
  | false =>
    cases sym with
    | char code hcode =>
      by_cases hfield : isPrintable field = true
      · simp [symbolOfField, symbolKind, symbolCode, hfield]
      · have hne : field ≠ code := by
          rintro rfl
          exact hfield hcode
        simp [symbolOfField, symbolCode, hfield, hne]
    | named k => simp [symbolOfField, symbolKind]
  | true =>
    cases sym with
    | char code hcode => simp [symbolOfField, symbolKind]
    | named k =>
      have hfield : field = BitVec.ofNat 8 (keyIndex k) ↔ field.toNat = keyIndex k := by
        rw [BitVec.toNat_eq, toNat_ofNat_keyIndex]
      simp [symbolOfField, symbolKind, symbolCode, keyOfIndex_eq_some_iff, hfield]

/-! ### The three fields of an event word -/

theorem eventWord_direction (e : Event) : (eventWord e).getLsbD 9 = decide (e.dir = .pressed) := by
  rw [eventWord, BitVec.getLsbD_append, if_neg (by decide), BitVec.getLsbD_ofBool]
  simp

theorem eventWord_kind (e : Event) : (eventWord e).getLsbD 8 = symbolKind e.sym := by
  rw [eventWord, BitVec.getLsbD_append, if_pos (by decide), symbolField_eq, BitVec.getLsbD_append, if_neg (by decide),
    BitVec.getLsbD_ofBool]
  simp

theorem eventWord_code (e : Event) : (eventWord e).extractLsb' 0 8 = symbolCode e.sym := by
  rw [eventWord, symbolField_eq, BitVec.extractLsb'_append_eq_of_add_le (by decide),
    BitVec.extractLsb'_append_eq_right]

theorem eventWord_ext {v w : EventWord} (hdir : v.getLsbD 9 = w.getLsbD 9) (hkind : v.getLsbD 8 = w.getLsbD 8)
    (hcode : v.extractLsb' 0 8 = w.extractLsb' 0 8) : v = w := by
  refine BitVec.eq_of_getLsbD_eq fun i hi => ?_
  obtain hlow | rfl | rfl : i < 8 ∨ i = 8 ∨ i = 9 := by omega
  · have hbit := congrArg (·.getLsbD i) hcode
    simpa [hlow] using hbit
  · exact hkind
  · exact hdir

/-- The direction bit gives the direction back. -/
theorem ite_direction_eq_iff (b : Bool) (dir : Direction) :
    (if b then Direction.pressed else .released) = dir ↔ b = decide (dir = .pressed) := by
  cases b <;> cases dir <;> decide

theorem eventOfWord_eq_some_iff (e : Event) (w : EventWord) : eventOfWord w = some e ↔ w = eventWord e := by
  obtain ⟨sym, dir⟩ := e
  have hfields : eventOfWord w = some ⟨sym, dir⟩ ↔
      (w.getLsbD 8 = symbolKind sym ∧ w.extractLsb' 0 8 = symbolCode sym) ∧
        w.getLsbD 9 = decide (dir = .pressed) := by
    rw [← symbolOfField_eq_some_iff, ← ite_direction_eq_iff]
    simp [eventOfWord]
  rw [hfields]
  constructor
  · rintro ⟨⟨hkind, hcode⟩, hdir⟩
    exact eventWord_ext (by rw [hdir, eventWord_direction]) (by rw [hkind, eventWord_kind])
      (by rw [hcode, eventWord_code])
  · rintro rfl
    exact ⟨⟨eventWord_kind _, eventWord_code _⟩, eventWord_direction _⟩

/-- Settles O4: the fields by kind of symbol, the ranges by the type of a symbol, and the reading. -/
theorem eventWordsFollowTheirFields : Obligations.EventWordsFollowTheirFields := by
  refine ⟨fun e => ⟨by rw [eventWord_direction, decide_eq_true_iff], ?_⟩, eventOfWord_eq_some_iff⟩
  rw [eventWord_kind, eventWord_code]
  cases e.sym with
  | char code hcode =>
    have hrange : 0x20 ≤ code.toNat ∧ code.toNat ≤ 0x7E := of_decide_eq_true hcode
    simpa [symbolKind, symbolCode] using hrange
  | named k =>
    simp only [symbolKind, symbolCode, toNat_ofNat_keyIndex]
    exact ⟨⟨trivial, trivial⟩, fun _ => keyIndex_le k, nofun⟩

end Sys2Proof.Proofs
end

section
/-! PROOFS. The assembler's lines (30_encoding.md R65) and the pseudo-stimuli (R66). -/

namespace Sys2Proof.Proofs

open Sys2Proof.Machine

/-! ### Assembler lines -/

/-- Every stimulus is found among the 256 words, at its encoding. -/
theorem mem_allStimuli (i : Instr) : i ∈ allStimuli := by
  refine List.mem_filterMap.mpr ⟨(encode i).toNat, List.mem_range.mpr (encode i).isLt, ?_⟩
  have hword : tableWord 8 (encode i).toNat = encode i := by
    rw [tableWord, Nat.mod_eq_of_lt (encode i).isLt, BitVec.ofNat_toNat, BitVec.setWidth_eq]
  rw [decodeTableWord, hword, decode_encode]

/-- No two of the eleven stimuli have one spelling. -/
theorem asmLine_injective : Function.Injective asmLine := by
  have hnodup : (allStimuli.map asmLine).Nodup := by decide
  exact fun i j hij => List.inj_on_of_nodup_map hnodup (mem_allStimuli i) (mem_allStimuli j) hij

/-- A line is read as a stimulus that it spells. -/
theorem asmLine_of_parseLine {line : String} {i : Instr} (h : parseLine line = some i) : asmLine i = line := by
  have hfound : (asmLine i == line) = true := List.find?_some (p := fun j => asmLine j == line) h
  exact beq_iff_eq.mp hfound

theorem parseLine_asmLine (i : Instr) : parseLine (asmLine i) = some i := by
  have hfound : (parseLine (asmLine i)).isSome := List.find?_isSome.mpr ⟨i, mem_allStimuli i, beq_self_eq_true _⟩
  obtain ⟨j, hj⟩ := Option.isSome_iff_exists.mp hfound
  rw [hj, asmLine_injective (asmLine_of_parseLine hj)]

/-- Settles O7: a line's reader searches all stimuli, which are spelled differently. -/
theorem assemblerLinesRoundTrip : Obligations.AssemblerLinesRoundTrip :=
  fun i _ => ⟨fun h => (asmLine_of_parseLine h).symm, fun hline => hline ▸ parseLine_asmLine i⟩

/-! ### Pseudo-stimuli -/

theorem length_flatMap_bitStimuli (p : Port) (idle : Bool) (bits : List Bool) :
    (bits.flatMap (bitStimuli p idle)).length = 2 * bits.length := by
  simp [bitStimuli, List.length_flatMap, Nat.mul_comm]

/-- The two SIGs of the `k`-th bit stand at places `2 k` and `2 k + 1`. -/
theorem getElem?_flatMap_bitStimuli (p : Port) (idle : Bool) (bits : List Bool) (k : Nat) :
    (bits.flatMap (bitStimuli p idle))[2 * k]? = bits[k]?.map (.sig p idle) ∧
      (bits.flatMap (bitStimuli p idle))[2 * k + 1]? = bits[k]?.map (.sig p (!idle)) := by
  induction bits generalizing k with
  | nil => simp
  | cons d bits ih =>
    rw [List.flatMap_cons]
    cases k with
    | zero => exact ⟨rfl, rfl⟩
    | succ k => exact ih k

@[simp] theorem length_wireBits (v : Packet) : (wireBits v).length = 24 := by
  simp [wireBits, packetWidth]

/-- R51: wire index `k` is packet bit `23 - k`. -/
theorem getElem?_wireBits (v : Packet) {k : Nat} (hk : k < 24) : (wireBits v)[k]? = some (v.getLsbD (23 - k)) := by
  simp [wireBits, packetWidth, hk]

theorem expand_packet {edge : Edge} {idle : Bool} (hidle : idleLevel edge = some idle) (p : Port) (v : Packet) :
    expand edge (.packet p v) = some ((wireBits v).flatMap (bitStimuli p idle)) := by
  rw [expand, hidle, Option.map_some]

/-- Settles O8: IDLE and BIT by the definition of `expand`, their words by evaluation, PACKET bit by bit. -/
theorem pseudoStimuliExpand : Obligations.PseudoStimuliExpand := by
  refine ⟨fun _ => rfl, fun _ _ => rfl, fun _ => rfl, fun _ _ => rfl, by decide, by decide,
    fun edge idle p v hidle => ⟨_, expand_packet hidle p v, ?_, fun k hk => ?_⟩⟩
  · rw [length_flatMap_bitStimuli, length_wireBits]
  · obtain ⟨hfirst, hsecond⟩ := getElem?_flatMap_bitStimuli p idle (wireBits v) k
    rw [hfirst, hsecond, getElem?_wireBits v hk]
    exact ⟨rfl, rfl⟩

end Sys2Proof.Proofs
end

section
/-! PROOFS. A run over the words of a list of SIGs (40_edge_sampler.md R79): it samples its port and nothing else, and
from a port with room for them it collects the bits at the active edges. PACKET (30_encoding.md R66) is one such
list. -/

namespace Sys2Proof.Proofs

open Sys2Proof.Machine Sys2Proof.Laws Sys2Proof.Claims

/-! ### The words of a list of SIGs -/

/-- A step that takes the word of a SIG samples the SIG's port. -/
theorem step_sigWord {s : State} (hfault : s.fault = false) {p : Port} {c d : Bool} {rest : List StimWord}
    (hwords : s.pending = encode (.sig p c d) :: rest) :
    step s = .next ((s.setPending rest).setPort p (samplePort .msbFirst configuration c d (s.port p))) := by
  rw [step_stimulus _ rest _ hwords (decode_encode _)]
  refine (execSig_next_iff p c d _ _).mpr ⟨hfault, ?_⟩
  rw [sigState, setPending_port]

/-- A run over the words of a list of SIGs of one port samples that port by each of them. -/
theorem runSteps_sigWords (p : Port) (sigs : List (Bool × Bool)) (rest : List StimWord) {s : State}
    (hfault : s.fault = false) (hwords : s.pending = sigWords p sigs ++ rest) :
    runSteps sigs.length s = .next ((s.setPending rest).setPort p (sampleAll configuration (s.port p) sigs)) := by
  induction sigs generalizing s with
  | nil =>
    obtain rfl : s.pending = rest := hwords
    rw [setPending_self, sampleAll, List.foldl_nil, setPort_self]
    rfl
  | cons x sigs ih =>
    rw [List.length_cons, runSteps_succ _ (step_sigWord hfault hwords), ih (by simpa using hfault) (setPort_pending ..),
      setPort_port, setPort_setPending, setPort_setPort]
    rfl

/-! ### One SIG by the number of bits collected -/

section Sample

variable {cfg : Config} {c : Bool} {ps : PortState} (d : Bool)

/-- R73. -/
theorem samplePort_of_not_active (hactive : active cfg.edge ps.lastClk c = false) :
    samplePort .msbFirst cfg c d ps = { ps with lastClk := some c } := by
  simp [samplePort_eq, completes, hactive]

/-- R74. -/
theorem samplePort_of_lt (hactive : active cfg.edge ps.lastClk c = true) (hcnt : ps.cnt.toNat < 23) :
    samplePort .msbFirst cfg c d ps =
      { ps with
        acc := shiftIn .msbFirst ps.acc d
        cnt := BitVec.ofNat 5 (ps.cnt.toNat + 1)
        lastClk := some c } := by
  simp [samplePort_eq, completes, hactive, hcnt, hcnt.ne]

/-- R75. -/
theorem samplePort_of_eq (hactive : active cfg.edge ps.lastClk c = true) (hcnt : ps.cnt.toNat = 23) :
    samplePort .msbFirst cfg c d ps =
      { ps with
        acc := 0#24
        cnt := 0#5
        lastClk := some c
        pkt := shiftIn .msbFirst ps.acc d
        ready := true } := by
  simp [samplePort_eq, completes, hactive, hcnt]

end Sample

/-! ### The bits a list of SIGs collects -/

/-- The accumulator after a list of bits (R74). -/
def shiftAll (acc : Packet) (bits : List Bool) : Packet := bits.foldl (shiftIn .msbFirst) acc

/-- The clock level after a list of SIGs (R77). -/
def levelAfter (level : Option Bool) (sigs : List (Bool × Bool)) : Option Bool :=
  sigs.foldl (fun _ x => some x.1) level

theorem sampleAll_cons (cfg : Config) (ps : PortState) (c d : Bool) (sigs : List (Bool × Bool)) :
    sampleAll cfg ps ((c, d) :: sigs) = sampleAll cfg (samplePort .msbFirst cfg c d ps) sigs := rfl

theorem sampledBits_cons (edge : Edge) (level : Option Bool) (c d : Bool) (sigs : List (Bool × Bool)) :
    sampledBits edge level ((c, d) :: sigs) =
      if active edge level c then d :: sampledBits edge (some c) sigs else sampledBits edge (some c) sigs := rfl

/-- A cursor below 23 does not wrap when it counts a bit. -/
theorem toNat_cursor_succ {n : Nat} (hn : n < 23) : (BitVec.ofNat 5 (n + 1)).toNat = n + 1 := by
  rw [BitVec.toNat_ofNat, Nat.mod_eq_of_lt (by omega)]

/-- R74: with fewer bits than the packet lacks, each is shifted in and counted. -/
theorem sampleAll_of_lt {cfg : Config} {sigs : List (Bool × Bool)} {ps : PortState} {bits : List Bool}
    (hbits : sampledBits cfg.edge ps.lastClk sigs = bits) (hcount : ps.cnt.toNat + bits.length < 24) :
    sampleAll cfg ps sigs =
      { ps with
        acc := shiftAll ps.acc bits
        cnt := BitVec.ofNat 5 (ps.cnt.toNat + bits.length)
        lastClk := levelAfter ps.lastClk sigs } := by
  induction sigs generalizing ps bits with
  | nil =>
    subst hbits
    simp [sampleAll, sampledBits, shiftAll, levelAfter]
  | cons x sigs ih =>
    obtain ⟨c, d⟩ := x
    rw [sampledBits_cons] at hbits
    rw [sampleAll_cons]
    split at hbits
    next hactive =>
      subst hbits
      rw [List.length_cons] at hcount
      have hlt : ps.cnt.toNat < 23 := by omega
      have hnext := toNat_cursor_succ hlt
      rw [samplePort_of_lt d hactive hlt, ih rfl (by dsimp only; omega)]
      simp only [hnext, List.length_cons, Nat.add_assoc, Nat.add_comm 1]
      rfl
    next hidle =>
      rw [samplePort_of_not_active d (Bool.eq_false_iff.mpr hidle)]
      exact ih (ps := { ps with lastClk := some c }) hbits hcount

/-- R75: with as many bits as the packet lacks, the packet is captured at the last of them. -/
theorem sampleAll_of_eq {cfg : Config} {sigs : List (Bool × Bool)} {ps : PortState} {bits : List Bool}
    (hbits : sampledBits cfg.edge ps.lastClk sigs = bits) (hroom : ps.cnt.toNat < 24)
    (hcount : ps.cnt.toNat + bits.length = 24) :
    sampleAll cfg ps sigs =
      { ps with
        acc := 0#24
        cnt := 0#5
        lastClk := levelAfter ps.lastClk sigs
        pkt := shiftAll ps.acc bits
        ready := true } := by
  induction sigs generalizing ps bits with
  | nil =>
    subst hbits
    exact absurd hcount hroom.ne
  | cons x sigs ih =>
    obtain ⟨c, d⟩ := x
    rw [sampledBits_cons] at hbits
    rw [sampleAll_cons]
    split at hbits
    next hactive =>
      subst hbits
      rw [List.length_cons] at hcount
      obtain hlt | hlast : ps.cnt.toNat < 23 ∨ ps.cnt.toNat = 23 := by omega
      · have hnext := toNat_cursor_succ hlt
        rw [samplePort_of_lt d hactive hlt, ih rfl (by dsimp only; omega) (by dsimp only; omega)]
        rfl
      · have hnone : sampledBits cfg.edge (some c) sigs = [] := List.eq_nil_of_length_eq_zero (by omega)
        rw [samplePort_of_eq d hactive hlast, sampleAll_of_lt hnone Nat.ofNat_pos, hnone]
        rfl
    next hidle =>
      rw [samplePort_of_not_active d (Bool.eq_false_iff.mpr hidle)]
      exact ih (ps := { ps with lastClk := some c }) hbits hroom hcount

/-! ### Twenty-four bits replace the accumulator -/

/-- R74: the last bit of a list is bit 0 of the accumulator, and what stood there is above the list's bits. -/
theorem shiftAll_getLsbD (acc : Packet) (bits : List Bool) {n : Nat} (hn : n < 24) :
    (shiftAll acc bits).getLsbD n =
      if n < bits.length then bits.getD (bits.length - 1 - n) false else acc.getLsbD (n - bits.length) := by
  induction bits generalizing acc with
  | nil => simp [shiftAll]
  | cons d bits ih =>
    rw [shiftAll, List.foldl_cons, ← shiftAll, ih, shiftIn_msb_getLsbD, List.length_cons,
      decide_eq_true (show n - bits.length < 24 by omega), Bool.true_and]
    obtain hlt | rfl | hgt := Nat.lt_trichotomy n bits.length
    · have hplace : bits.length + 1 - 1 - n = bits.length - 1 - n + 1 := by omega
      rw [if_pos hlt, if_pos (by omega), hplace, List.getD_cons_succ]
    · simp
    · rw [if_neg (by omega), if_neg (by omega), if_neg (by omega), Nat.sub_sub]

/-- R51, R75: twenty-four bits make the packet they carry, whatever stood in the accumulator. -/
theorem shiftAll_eq_packetOfWire (acc : Packet) {bits : List Bool} (hlength : bits.length = 24) :
    shiftAll acc bits = packetOfWire bits := by
  refine BitVec.eq_of_getLsbD_eq fun n hn => ?_
  rw [shiftAll_getLsbD acc bits hn, hlength, if_pos hn, packetOfWire, gather_getLsbD, decide_eq_true hn, Bool.true_and]

theorem packetOfWire_wireBits (v : Packet) : packetOfWire (wireBits v) = v := by
  refine BitVec.eq_of_getLsbD_eq fun n hn => ?_
  rw [packetOfWire, gather_getLsbD, decide_eq_true hn, Bool.true_and, List.getD_eq_getElem?_getD,
    getElem?_wireBits v (by omega), Option.getD_some, Nat.sub_sub_self (by omega)]

/-! ### PACKET -/

/-- The clock and data levels of a list of BITs under a falling edge (R66). -/
def bitSigs (bits : List Bool) : List (Bool × Bool) := bits.flatMap fun d => [(true, d), (false, d)]

theorem packetWords_eq (p : Port) (v : Packet) : packetWords p v = sigWords p (bitSigs (wireBits v)) := by
  simp [packetWords, sigWords, bitSigs, bitStimuli, List.map_flatMap]

theorem length_bitSigs (bits : List Bool) : (bitSigs bits).length = 2 * bits.length := by
  simp [bitSigs, List.length_flatMap, Nat.mul_comm]

/-- Every BIT has one active edge, at its second SIG, whatever the clock level was before it. -/
theorem sampledBits_bitSigs (level : Option Bool) (bits : List Bool) :
    sampledBits .falling level (bitSigs bits) = bits := by
  have hfirst (level : Option Bool) : active .falling level true = false := by cases level <;> simp [active]
  have hsecond : active .falling (some true) false = true := rfl
  induction bits generalizing level with
  | nil => rfl
  | cons d bits ih =>
    rw [bitSigs, List.flatMap_cons, ← bitSigs]
    simp [sampledBits_cons, hfirst, hsecond, ih]

theorem levelAfter_bitSigs (level : Option Bool) {bits : List Bool} (hbits : bits ≠ []) :
    levelAfter level (bitSigs bits) = some false := by
  have hlow (bits : List Bool) : levelAfter (some false) (bitSigs bits) = some false := by
    induction bits with
    | nil => rfl
    | cons d bits ih => exact ih
  obtain ⟨d, bits, rfl⟩ := List.exists_cons_of_ne_nil hbits
  exact hlow bits

/-- R66: the SIGs of a packet hand it over from a cursor of 0, whatever the clock level was. -/
theorem sampleAll_bitSigs_wireBits {ps : PortState} (hcnt : ps.cnt = 0#5) (v : Packet) :
    sampleAll configuration ps (bitSigs (wireBits v)) =
      { ps with acc := 0#24, cnt := 0#5, lastClk := some false, pkt := v, ready := true } := by
  have hbits : sampledBits configuration.edge ps.lastClk (bitSigs (wireBits v)) = wireBits v :=
    sampledBits_bitSigs ps.lastClk (wireBits v)
  rw [sampleAll_of_eq hbits (by simp [hcnt]) (by simp [hcnt]), shiftAll_eq_packetOfWire _ (length_wireBits v),
    packetOfWire_wireBits, levelAfter_bitSigs _ (List.ne_nil_of_length_pos (by simp))]

/-- Settles O16: the 48 words are those of the packet's SIGs. -/
theorem packetStimuliDeliverThePacket : Obligations.PacketStimuliDeliverThePacket := by
  intro p v rest s hfault hcnt hwords
  rw [packetWords_eq] at hwords
  have hlength : (bitSigs (wireBits v)).length = 48 := by rw [length_bitSigs, length_wireBits]
  rw [← hlength, runSteps_sigWords p _ rest hfault hwords, sampleAll_bitSigs_wireBits hcnt]

end Sys2Proof.Proofs
end

section
/-! PROOFS. The two bit orders (30_encoding.md R51): reversing the packets of a port, and with them the positions of
the configuration, commutes with what each stimulus does to that port and appends to `OUT`. -/

namespace Sys2Proof.Proofs

open Sys2Proof.Machine Sys2Proof.Laws

/-! ### Reversing a packet -/

theorem reversePacket_getLsbD (v : Packet) (n : Nat) :
    (reversePacket v).getLsbD n = (decide (n < 24) && v.getLsbD (23 - n)) :=
  gather_getLsbD 24 _ n

theorem reversePacket_getLsbD_of_lt (v : Packet) {n : Nat} (hn : n < 24) :
    (reversePacket v).getLsbD n = v.getLsbD (23 - n) := by
  rw [reversePacket_getLsbD, decide_eq_true hn, Bool.true_and]

/-- Reversing moves bit `n` to bit `23 - n`. -/
theorem reversePacket_getLsbD_sub (v : Packet) {n : Nat} (hn : n < 24) :
    (reversePacket v).getLsbD (23 - n) = v.getLsbD n := by
  rw [reversePacket_getLsbD_of_lt v (by omega), Nat.sub_sub_self (by omega)]

@[simp] theorem reversePacket_reversePacket (v : Packet) : reversePacket (reversePacket v) = v := by
  refine BitVec.eq_of_getLsbD_eq fun n hn => ?_
  rw [reversePacket_getLsbD_of_lt _ hn, reversePacket_getLsbD_sub v hn]

@[simp] theorem reversePacket_inj {v w : Packet} : reversePacket v = reversePacket w ↔ v = w :=
  ⟨fun h => by rw [← reversePacket_reversePacket v, h, reversePacket_reversePacket], congrArg _⟩

@[simp] theorem reversePacket_zero : reversePacket 0#24 = 0#24 := by decide

theorem reversePacket_and (v w : Packet) : reversePacket v &&& reversePacket w = reversePacket (v &&& w) := by
  refine BitVec.eq_of_getLsbD_eq fun n hn => ?_
  simp only [BitVec.getLsbD_and, reversePacket_getLsbD_of_lt _ hn]

theorem reversePacket_not (v : Packet) : ~~~reversePacket v = reversePacket (~~~v) := by
  refine BitVec.eq_of_getLsbD_eq fun n hn => ?_
  have hsub : 23 - n < 24 := by omega
  simp only [BitVec.getLsbD_not, reversePacket_getLsbD_of_lt _ hn, hn, hsub]

theorem popcount_reversePacket (v : Packet) : popcount (reversePacket v) = popcount v := by
  have hrange : (List.range 24).reverse = (List.range 24).map (23 - ·) := by decide
  calc popcount (reversePacket v)
    _ = (List.range 24).countP (fun n => v.getLsbD (23 - n)) :=
        List.countP_congr fun n hn => by rw [reversePacket_getLsbD_of_lt v (List.mem_range.mp hn)]
    _ = (List.range 24).reverse.countP (fun n => v.getLsbD n) := by rw [hrange, List.countP_map]; rfl
    _ = popcount v := List.countP_reverse

/-! ### Reversing the configuration -/

theorem reverseConfig_wellFormed {cfg : Config} (hwf : cfg.WellFormed) : (reverseConfig cfg).WellFormed := by
  obtain ⟨hvalue, hrange, hinj, hdata, hcover⟩ := (wellFormed_iff cfg).mp hwf
  refine (wellFormed_iff _).mpr ⟨?_, fun b => ?_, fun a b hab => hinj a b ?_, fun b => ?_, ?_⟩
  · simp only [reverseConfig, reversePacket_not, reversePacket_and, hvalue, reversePacket_zero]
  · simp only [reverseConfig]
    omega
  · have ha := hrange a
    have hb := hrange b
    simp only [reverseConfig] at hab
    omega
  · simpa only [reverseConfig, reversePacket_getLsbD_sub _ (hrange b)] using hdata b
  · simpa only [reverseConfig, popcount_reversePacket] using hcover

/-- R90: the check compares the same bits. -/
@[simp] theorem validPacket_reverse (cfg : Config) (v : Packet) :
    validPacket (reverseConfig cfg) (reversePacket v) = validPacket cfg v := by
  rw [Bool.eq_iff_iff]
  simp [validPacket, reverseConfig, reversePacket_and]

/-- R91: the mapper reads the same bits. -/
theorem mapPacket_reverse {cfg : Config} (hwf : cfg.WellFormed) (v : Packet) :
    mapPacket (reverseConfig cfg) (reversePacket v) = mapPacket cfg v := by
  obtain ⟨-, hrange, -⟩ := (wellFormed_iff cfg).mp hwf
  refine bitmap_ext fun b => ?_
  rw [mapPacket_getLsbD_index, mapPacket_getLsbD_index]
  exact reversePacket_getLsbD_sub v (hrange b)

/-! ### Reversing a port -/

theorem shiftIn_lsb_getLsbD (acc : Packet) (d : Bool) {i : Nat} (hi : i < 24) :
    (shiftIn .lsbFirst acc d).getLsbD i = if i = 23 then d else acc.getLsbD (i + 1) := by
  rw [shiftIn, BitVec.getLsbD_or, BitVec.getLsbD_ushiftRight, BitVec.getLsbD_shiftLeft]
  obtain rfl | hlt : i = 23 ∨ i < 23 := by omega
  · simp
  · simp [hlt, hlt.ne, Nat.add_comm]

/-- R74 in the other order: the bit enters at the other end. -/
theorem shiftIn_reversePacket (acc : Packet) (d : Bool) :
    shiftIn .lsbFirst (reversePacket acc) d = reversePacket (shiftIn .msbFirst acc d) := by
  refine BitVec.eq_of_getLsbD_eq fun i hi => ?_
  rw [shiftIn_lsb_getLsbD _ _ hi, reversePacket_getLsbD_of_lt _ hi, shiftIn_msb_getLsbD,
    decide_eq_true (show 23 - i < 24 by omega), Bool.true_and]
  obtain rfl | hlt : i = 23 ∨ i < 23 := by omega
  · rfl
  · rw [if_neg hlt.ne, if_neg (by omega), reversePacket_getLsbD_of_lt _ (by omega), Nat.sub_sub, Nat.add_comm]

theorem samplePort_reverse (cfg : Config) (c d : Bool) (ps : PortState) :
    samplePort .lsbFirst (reverseConfig cfg) c d (reversePort ps) =
      reversePort (samplePort .msbFirst cfg c d ps) := by
  simp only [samplePort_eq, reversePort, shiftIn_reversePacket, apply_ite reversePacket,
    reversePacket_zero]
  rfl

theorem takesValid_reverse (cfg : Config) (ps : PortState) :
    takesValid (reverseConfig cfg) (reversePort ps) = takesValid cfg ps := by
  simp [takesValid, reversePort]

theorem polledPort_reverse {cfg : Config} (hwf : cfg.WellFormed) (ps : PortState) :
    polledPort (reverseConfig cfg) (reversePort ps) = reversePort (polledPort cfg ps) := by
  rw [polledPort, polledPort, takesValid_reverse]
  simp only [reversePort, mapPacket_reverse hwf]

/-- The keymaps and the event order name no packet position. -/
theorem orderedEvents_reverseConfig (cfg : Config) : orderedEvents (reverseConfig cfg) = orderedEvents cfg := rfl

theorem polledEvents_reverse {cfg : Config} (hwf : cfg.WellFormed) (emitted : Nat) (p : Port) (ps : PortState) :
    polledEvents (reverseConfig cfg) emitted p (reversePort ps) = polledEvents cfg emitted p ps := by
  rw [polledEvents, polledEvents, takesValid_reverse, orderedEvents_reverseConfig]
  simp only [reversePort, mapPacket_reverse hwf]

theorem reversePort_reset : reversePort PortState.reset = PortState.reset := by
  simp [reversePort, PortState.reset]

/-! ### Reversing a state -/

theorem reverseState_port (s : State) (p : Port) : (reverseState s).port p = reversePort (s.port p) := by
  cases p <;> rfl

theorem reverseState_setPort (s : State) (p : Port) (ps : PortState) :
    reverseState (s.setPort p ps) = (reverseState s).setPort p (reversePort ps) := by
  cases p <;> rfl

theorem reverseState_setOut (s : State) (out : List Event) :
    reverseState (s.setOut out) = (reverseState s).setOut out := rfl

theorem sigState_reverse (cfg : Config) (p : Port) (c d : Bool) (s : State) :
    sigState .lsbFirst (reverseConfig cfg) p c d (reverseState s) = reverseState (sigState .msbFirst cfg p c d s) := by
  rw [sigState, sigState, reverseState_setPort, reverseState_port, samplePort_reverse]

theorem pollState_reverse {cfg : Config} (hwf : cfg.WellFormed) (p : Port) (s : State) :
    pollState (reverseConfig cfg) p (reverseState s) = reverseState (pollState cfg p s) := by
  rw [pollState_eq, pollState_eq, reverseState_setOut, reverseState_setPort, reverseState_port,
    polledPort_reverse hwf, polledEvents_reverse hwf]
  rfl

theorem resetState_reverse (cfg : Config) (s : State) :
    resetState (reverseConfig cfg) (reverseState s) = reverseState (resetState cfg s) := by
  simp only [resetState, reverseState, reversePort_reset]
  rfl

/-- Settles O19: each stimulus commutes with the reversal, which leaves `OUT` alone and keeps R9. -/
theorem bitOrdersAreEquivalent : Obligations.BitOrdersAreEquivalent :=
  fun cfg hwf s =>
    ⟨fun p c d => sigState_reverse cfg p c d s, fun p => pollState_reverse hwf p s, resetState_reverse cfg s, rfl,
      reverseConfig_wellFormed hwf⟩

end Sys2Proof.Proofs
end

section
/-! PROOFS. The Edge Sampler (40_edge_sampler.md R71 to R80): what a SIG answers, by the kind of its edge and by the
number of bits collected; that the two ports' samplers do not meet; and that from a cursor of 0 the bits at 24
active edges are one packet. -/

namespace Sys2Proof.Proofs

open Sys2Proof.Machine Sys2Proof.Laws Sys2Proof.Claims

/-! ### A list of SIGs (R79) -/

/-- No SIG touches the consumer's bitmap (R78). -/
theorem sampleAll_prev (cfg : Config) (ps : PortState) (sigs : List (Bool × Bool)) :
    (sampleAll cfg ps sigs).prev = ps.prev := by
  induction sigs generalizing ps with
  | nil => rfl
  | cons x sigs ih =>
    obtain ⟨c, d⟩ := x
    rw [sampleAll_cons, ih, samplePort_prev]

/-- Settles O15: the run samples the port by the whole list, and the induction over the list is that of
`sampleAll_of_eq` and `sampleAll_of_lt`, here from a cursor of 0. -/
theorem twentyFourEdgesMakeOnePacket : Obligations.TwentyFourEdgesMakeOnePacket := by
  intro p sigs rest s hfault hcnt hwords
  have hzero : (s.port p).cnt.toNat = 0 := by rw [hcnt]; rfl
  refine ⟨_, runSteps_sigWords p sigs rest hfault hwords, sampleAll_prev .., fun h24 => ?_, fun hlt => ?_⟩
  · rw [sampleAll_of_eq (cfg := configuration) rfl (by omega) (by rw [hzero, Nat.zero_add]; exact h24)]
    exact ⟨shiftAll_eq_packetOfWire _ h24, rfl, rfl, rfl⟩
  · rw [sampleAll_of_lt (cfg := configuration) rfl (by rw [hzero, Nat.zero_add]; exact hlt)]
    refine ⟨rfl, rfl, ?_⟩
    rw [hzero, Nat.zero_add, BitVec.toNat_ofNat]
    exact Nat.mod_eq_of_lt (hlt.trans (by decide))

/-! ### Active edges (R71, R72) -/

/-- R72: an unknown level before it makes no edge active. -/
@[simp] theorem active_none (edge : Edge) (c : Bool) : active edge none c = false := rfl

/-- R71 after a known clock level. -/
theorem active_some_iff (edge : Edge) (before c : Bool) : active edge (some before) c = true ↔
    (edge = .falling ∧ before = true ∧ c = false) ∨ (edge = .rising ∧ before = false ∧ c = true) ∨
      (edge = .both ∧ before ≠ c) := by
  cases edge <;> simp [active]

/-- Settles O9, by whether the level before is known. -/
theorem activeEdgePredicate : Obligations.ActiveEdgePredicate := by
  refine ⟨fun edge prev c => ?_, rfl⟩
  cases prev with
  | none => simp
  | some before => simp [active_some_iff]

/-! ### What a SIG leaves in its port (R73 to R76) -/

section Sample

variable {cfg : Config} {c : Bool} {ps : PortState} (d : Bool)

/-- R72. -/
theorem samplePort_of_unknown (hclk : ps.lastClk = none) :
    samplePort .msbFirst cfg c d ps = { ps with lastClk := some c } :=
  samplePort_of_not_active d (by rw [hclk, active_none])

/-- R74 and R75. -/
theorem samplePort_eq_afterActiveEdge (hactive : active cfg.edge ps.lastClk c = true) (hcnt : ps.cnt.toNat ≤ 23) :
    samplePort .msbFirst cfg c d ps = afterActiveEdge ps c d := by
  obtain hlt | hlast := hcnt.lt_or_eq
  · rw [samplePort_of_lt d hactive hlt, afterActiveEdge, if_neg (by omega)]
    rfl
  · rw [samplePort_of_eq d hactive hlast, afterActiveEdge, if_pos (by omega)]
    rfl

/-- R76. -/
theorem samplePort_of_ge (hactive : active cfg.edge ps.lastClk c = true) (hcnt : 24 ≤ ps.cnt.toNat) :
    samplePort .msbFirst cfg c d ps = { ps with lastClk := some c, acc := 0#24, cnt := 0#5 } := by
  have hover : ¬ ps.cnt.toNat < 23 ∧ ps.cnt.toNat ≠ 23 := by omega
  simp [samplePort_eq, completes, hactive, hover]

/-- R22: a SIG counts a cursor of 0..23 to 23 at most. -/
theorem samplePort_cnt_le (hcnt : ps.cnt.toNat ≤ 23) : (samplePort .msbFirst cfg c d ps).cnt.toNat ≤ 23 := by
  rw [samplePort_cnt]
  split
  · split
    next hlt => rwa [toNat_cursor_succ hlt]
    next => exact Nat.zero_le 23
  · exact hcnt

end Sample

/-! ### What a SIG answers -/

/-- The machine's falling edge is active (R71). -/
theorem active_configuration_falling {prev : Option Bool} (hclk : prev = some true) :
    active configuration.edge prev false = true :=
  (active_configuration_iff prev false).mpr ⟨hclk, rfl⟩

section Answer

variable {cfg : Config} {p : Port} {c : Bool} {s : State} (d : Bool) (hwf : cfg.WellFormed) (hfault : s.fault = false)
include hwf hfault

/-- A SIG samples its port (R77). -/
theorem sigWith_next : sigWith cfg p c d s = .next (sigState .msbFirst cfg p c d s) := running_ok hwf hfault _

/-- R72. -/
theorem sigWith_of_unknown (hclk : (s.port p).lastClk = none) :
    sigWith cfg p c d s = .next (s.setPort p { s.port p with lastClk := some c }) := by
  rw [sigWith_next d hwf hfault, sigState, samplePort_of_unknown d hclk]

/-- R73. -/
theorem sigWith_of_not_active (hactive : active cfg.edge (s.port p).lastClk c = false) :
    sigWith cfg p c d s = .next (s.setPort p { s.port p with lastClk := some c }) := by
  rw [sigWith_next d hwf hfault, sigState, samplePort_of_not_active d hactive]

/-- R74 and R75. -/
theorem sigWith_of_active_of_le (hactive : active cfg.edge (s.port p).lastClk c = true)
    (hcnt : (s.port p).cnt.toNat ≤ 23) :
    sigWith cfg p c d s = .next (s.setPort p (afterActiveEdge (s.port p) c d)) := by
  rw [sigWith_next d hwf hfault, sigState, samplePort_eq_afterActiveEdge d hactive hcnt]

/-- R76. -/
theorem sigWith_of_active_of_ge (hactive : active cfg.edge (s.port p).lastClk c = true)
    (hcnt : 24 ≤ (s.port p).cnt.toNat) :
    sigWith cfg p c d s = .next (s.setPort p { s.port p with lastClk := some c, acc := 0#24, cnt := 0#5 }) := by
  rw [sigWith_next d hwf hfault, sigState, samplePort_of_ge d hactive hcnt]

end Answer

/-- Settles O10: a SIG is `sigWith_of_unknown`, and RESET and power-on leave the port at its reset values. -/
theorem firstSigOnlySetsTheLevel : Obligations.FirstSigOnlySetsTheLevel := by
  refine ⟨fun _ _ _ d _ => sigWith_of_unknown d, fun _ _ d _ => sigWith_of_unknown d configuration_wellFormed,
    fun p s t h => ?_, fun p => by cases p <;> rfl⟩
  obtain ⟨hport, -⟩ := exec_next_fields h
  rw [hport, portAfter_reset]
  rfl

/-- Settles O11: a SIG is `sigWith_of_not_active`, and the machine's edge is active only when the clock falls. -/
theorem sigWithoutActiveEdge : Obligations.SigWithoutActiveEdge := by
  refine ⟨fun _ _ _ d _ => sigWith_of_not_active d,
    fun p c d s hfault hnot => sigWith_of_not_active d configuration_wellFormed hfault ?_⟩
  rwa [← Bool.not_eq_true, active_configuration_iff]

/-- Settles O12: a SIG is `sigWith_of_active_of_le`, and the machine's edge is active when the clock falls. -/
theorem activeEdgeShiftsAndCaptures : Obligations.ActiveEdgeShiftsAndCaptures :=
  ⟨fun _ _ _ d _ => sigWith_of_active_of_le d, fun _ d _ hfault hclk =>
    sigWith_of_active_of_le d configuration_wellFormed hfault (active_configuration_falling hclk)⟩

/-! ### The cursor stays in range (R76) -/

/-- Every stimulus keeps a cursor of 0..23 there. -/
theorem portAfter_cnt_le {ps : PortState} (hcnt : ps.cnt.toNat ≤ 23) (i : Instr) (p : Port) :
    (portAfter i p ps).cnt.toNat ≤ 23 := by
  cases i with
  | sig q c d =>
    obtain rfl | hne := eq_or_ne q p
    · rw [portAfter_sig]
      exact samplePort_cnt_le d hcnt
    · rwa [portAfter_sig_of_ne c d ps hne]
  | poll q =>
    obtain rfl | hne := eq_or_ne q p
    · rwa [portAfter_poll, polledPort_cnt]
    · rwa [portAfter_poll_of_ne ps hne]
  | reset => exact Nat.zero_le 23

/-- Every step keeps a cursor of 0..23 there: a waiting step and a reserved word change no port. -/
theorem cnt_le_of_step {p : Port} {s t : State} (hcnt : (s.port p).cnt.toNat ≤ 23) (h : step s = .next t) :
    (t.port p).cnt.toNat ≤ 23 := by
  obtain ⟨-, ⟨-, rfl⟩ | ⟨w, rest, why, -, -, rfl⟩ | ⟨w, rest, i, -, -, hexec⟩⟩ := step_next_cases h
  · exact hcnt
  · simpa using hcnt
  · obtain ⟨hport, -⟩ := exec_next_fields hexec
    rw [hport, setPending_port]
    exact portAfter_cnt_le hcnt i p

/-- Settles O13: a SIG is `sigWith_of_active_of_ge`, and `cnt_le_of_step` bounds every step. -/
theorem overflowRecovery : Obligations.OverflowRecovery :=
  ⟨fun _ _ _ d _ => sigWith_of_active_of_ge d, fun _ d _ hfault hclk =>
    sigWith_of_active_of_ge d configuration_wellFormed hfault (active_configuration_falling hclk),
    fun _ _ _ => cnt_le_of_step⟩

/-! ### The two samplers (R77, R78) -/

/-- What a SIG does in its port does not depend on the consumer's bitmap. -/
theorem samplePort_setPrev (order : BitOrder) (cfg : Config) (c d : Bool) (ps : PortState) (b : Bitmap) :
    samplePort order cfg c d { ps with prev := b } = { samplePort order cfg c d ps with prev := b } := by
  simp [samplePort_eq, completes]

/-- SIGs of different ports commute. -/
theorem sigState_comm (order : BitOrder) (cfg : Config) {p q : Port} (hne : p ≠ q) (c d c' d' : Bool) (s : State) :
    sigState order cfg q c' d' (sigState order cfg p c d s) =
      sigState order cfg p c d (sigState order cfg q c' d' s) := by
  simp only [sigState, setPort_port_of_ne _ _ _ _ hne, setPort_port_of_ne _ _ _ _ hne.symm]
  exact setPort_comm _ _ _ _ _ hne

@[simp] theorem sigState_fault (order : BitOrder) (cfg : Config) (p : Port) (c d : Bool) (s : State) :
    (sigState order cfg p c d s).fault = s.fault := setPort_fault ..

/-- The machine's SIG samples its port. -/
theorem exec_sig {p : Port} {c d : Bool} {s : State} (hfault : s.fault = false) :
    exec (.sig p c d) s = .next (sigState .msbFirst configuration p c d s) :=
  sigWith_next d configuration_wellFormed hfault

/-- Settles O14: a SIG replaces its own port's fields by `samplePort`, which keeps the bitmap and does not read it. -/
theorem samplersAreIndependent : Obligations.SamplersAreIndependent := by
  refine ⟨fun p c d s t h => ?_, fun p c d s s' t t' h h' hsame => ?_, fun c d c' d' s hfault => ?_⟩
  · obtain ⟨-, rfl⟩ := (execSig_next_iff p c d s t).mp h
    simp [sigState]
  · obtain ⟨-, rfl⟩ := (execSig_next_iff p c d s t).mp h
    obtain ⟨-, rfl⟩ := (execSig_next_iff p c d s' t').mp h'
    rw [sigState, sigState, setPort_port, setPort_port, samplePort_prev, ← samplePort_setPrev, hsame]
  · have hother (p : Port) (c d : Bool) : (sigState .msbFirst configuration p c d s).fault = false := by
      rwa [sigState_fault]
    refine ⟨_, _, _, exec_sig hfault, exec_sig (hother ..), exec_sig hfault, ?_⟩
    rw [exec_sig (hother ..), sigState_comm _ _ (by decide)]

/-! ### Nothing is lost in a legal state (R80) -/

/-- R74 as arithmetic: with room for one more bit, the shift doubles the accumulator and adds the bit. -/
theorem toNat_shiftIn {acc : Packet} (hroom : acc.toNat < 2 ^ 23) (d : Bool) :
    (shiftIn .msbFirst acc d).toNat = 2 * acc.toNat + d.toNat := by
  have hshift : (acc <<< 1).toNat = acc.toNat <<< 1 := by
    rw [BitVec.toNat_shiftLeft, Nat.shiftLeft_eq, Nat.mod_eq_of_lt (by omega)]
  have hbit : ((BitVec.ofBool d).setWidth 24).toNat = d.toNat := by cases d <;> rfl
  calc (shiftIn .msbFirst acc d).toNat
    _ = acc.toNat <<< 1 ||| d.toNat := by rw [shiftIn, BitVec.toNat_or, hshift, hbit]
    _ = acc.toNat <<< 1 + d.toNat := (Nat.shiftLeft_add_eq_or_of_lt d.toNat_lt _).symm
    _ = 2 * acc.toNat + d.toNat := by rw [Nat.shiftLeft_eq, pow_one, Nat.mul_comm]

/-- Settles O51: a legal cursor is 23 at most, so a legal accumulator has room for one more bit. -/
theorem legalShiftLosesNothing : Obligations.LegalShiftLosesNothing := by
  intro s p d hs
  obtain ⟨hport, -⟩ := (legal_iff s).mp hs
  obtain ⟨hcnt, hacc, -⟩ := hport p
  have hroom : (s.port p).acc.toNat < 2 ^ 23 := hacc.trans_le (Nat.pow_le_pow_right Nat.two_pos hcnt)
  refine ⟨Nat.testBit_lt_two_pow hroom, ?_, ?_⟩
  · rw [toNat_shiftIn hroom]
    cases d <;> rfl
  · rw [BitVec.toNat_ofNat, Nat.mod_eq_of_lt (by omega)]

end Sys2Proof.Proofs
end

section
/-! PROOFS. The Frame Validator and the Bit Mapper (41_frame_decoder.md R90, R91) read disjoint bits: the check the
framing bits alone, the mapper the data bits alone. -/

namespace Sys2Proof.Proofs

open Sys2Proof.Machine Sys2Proof.Laws

/-! ### The check reads the framing bits (R90) -/

/-- R90: two packets that agree on every framing bit both pass the check, or neither does. -/
theorem validPacket_congr {cfg : Config} {P Q : Packet}
    (h : ∀ n, cfg.frameMask.getLsbD n = true → P.getLsbD n = Q.getLsbD n) :
    validPacket cfg P = validPacket cfg Q := by
  have hmasked : P &&& cfg.frameMask = Q &&& cfg.frameMask := by
    refine BitVec.eq_of_getLsbD_eq fun n _ => ?_
    rw [BitVec.getLsbD_and, BitVec.getLsbD_and]
    cases hmask : cfg.frameMask.getLsbD n with
    | true => rw [h n hmask]
    | false => simp
  rw [validPacket, validPacket, hmasked]

/-- A word with no bit in the mask changes no framing bit of a packet. -/
theorem getLsbD_xor_of_and_mask_eq_zero {D mask : Packet} (hD : D &&& mask = 0#24) (P : Packet) {n : Nat}
    (hmask : mask.getLsbD n = true) : (P ^^^ D).getLsbD n = P.getLsbD n := by
  have hbit : (D &&& mask).getLsbD n = false := by rw [hD, BitVec.getLsbD_zero]
  rw [BitVec.getLsbD_and, hmask, Bool.and_true] at hbit
  rw [BitVec.getLsbD_xor, hbit, Bool.xor_false]

theorem validPacket_xor_data {cfg : Config} {D : Packet} (hD : D &&& cfg.frameMask = 0#24) (P : Packet) :
    validPacket cfg (P ^^^ D) = validPacket cfg P :=
  validPacket_congr fun _ => getLsbD_xor_of_and_mask_eq_zero hD P

/-- A valid packet has the framing value's bit wherever the mask has one, in a well-formed configuration or not. -/
theorem framingAgrees_of_validPacket {cfg : Config} {P : Packet} (hP : validPacket cfg P = true) :
    FramingAgrees cfg P := by
  intro n hmask
  rw [validPacket, beq_iff_eq] at hP
  rw [← hP, BitVec.getLsbD_and, hmask, Bool.and_true]

/-- Flipping one bit of a packet flips that bit. -/
theorem getLsbD_xor_twoPow_self (P : Packet) {n : Nat} (hn : n < 24) :
    (P ^^^ BitVec.twoPow 24 n).getLsbD n = !P.getLsbD n := by
  simp [hn]

theorem validPacket_flip_framing {cfg : Config} {P : Packet} {n : Nat} (hmask : cfg.frameMask.getLsbD n = true)
    (hP : validPacket cfg P = true) : validPacket cfg (P ^^^ BitVec.twoPow 24 n) = false := by
  by_contra hvalid
  have hbit := framingAgrees_of_validPacket hP n hmask
  have hflipped := framingAgrees_of_validPacket (Bool.eq_true_of_not_eq_false hvalid) n hmask
  rw [getLsbD_xor_twoPow_self P (BitVec.lt_of_getLsbD hmask), hbit] at hflipped
  exact Bool.not_ne_self _ hflipped

/-- Settles O17: the check bit by bit is `validPacket_iff`, its blindness to data bits `validPacket_xor_data`,
the flipped bit `validPacket_flip_framing`; the machine's constants and the spec's examples are evaluated. -/
theorem framingCheckComparesFramingBits : Obligations.FramingCheckComparesFramingBits :=
  ⟨fun _ P hwf => validPacket_iff hwf P, fun _ P _ hD => validPacket_xor_data hD P,
    fun _ _ _ => validPacket_flip_framing, rfl, rfl, by decide, by decide, by decide, by decide⟩

/-! ### The mapper reads the data bits (R91) -/

/-- R91: two packets that agree on every data bit have one bitmap. -/
theorem mapPacket_congr {cfg : Config} {P Q : Packet}
    (h : ∀ b, P.getLsbD (cfg.dataPos b) = Q.getLsbD (cfg.dataPos b)) : mapPacket cfg P = mapPacket cfg Q :=
  bitmap_ext fun b => by rw [mapPacket_getLsbD_index, mapPacket_getLsbD_index, h]

theorem mapPacket_xor_frameMask {cfg : Config} (hwf : cfg.WellFormed) (P : Packet) :
    mapPacket cfg (P ^^^ cfg.frameMask) = mapPacket cfg P := by
  obtain ⟨-, -, -, hdata, -⟩ := (wellFormed_iff cfg).mp hwf
  exact mapPacket_congr fun b => by rw [BitVec.getLsbD_xor, hdata, Bool.xor_false]

/-- Settles O18: the data bits are `mapPacket_getLsbD_index`, and no data position is a framing bit; the machine's
positions and the spec's examples are evaluated. -/
theorem mapperSelectsDataBits : Obligations.MapperSelectsDataBits :=
  ⟨mapPacket_getLsbD_index, fun _ P hwf => mapPacket_xor_frameMask hwf P, rfl, by decide, by decide, by decide⟩

end Sys2Proof.Proofs
end

section
/-! PROOFS. Packets sent and polled in turn refine the differences of their bitmaps (41_frame_decoder.md R94, R95;
42_keymap_resolver.md R102, R108, R111). One packet and its POLL are 49 steps whose whole effect is given by
`runSteps_polledPacket`; a list of packets is the induction over it. -/

namespace Sys2Proof.Proofs

open Sys2Proof.Machine Sys2Proof.Laws Sys2Proof.Claims

/-! ### The port -/

/-- A port that holds the packet `v` just sent to it (R66, R75). -/
def deliveredPort (ps : PortState) (v : Packet) : PortState :=
  { ps with acc := 0#24, cnt := 0#5, lastClk := some false, pkt := v, ready := true }

/-- A port after the packet `v` was sent to it and polled. -/
def consumedPort (ps : PortState) (v : Packet) : PortState := polledPort configuration (deliveredPort ps v)

@[simp] theorem deliveredPort_prev (ps : PortState) (v : Packet) : (deliveredPort ps v).prev = ps.prev := rfl
@[simp] theorem deliveredPort_pkt (ps : PortState) (v : Packet) : (deliveredPort ps v).pkt = v := rfl

/-- A POLL accepts the packet just sent when it passes the check. -/
@[simp] theorem takesValid_deliveredPort (cfg : Config) (ps : PortState) (v : Packet) :
    takesValid cfg (deliveredPort ps v) = validPacket cfg v := by
  simp [takesValid, deliveredPort]

@[simp] theorem consumedPort_cnt (ps : PortState) (v : Packet) : (consumedPort ps v).cnt = 0#5 := rfl

theorem consumedPort_prev (ps : PortState) (v : Packet) : (consumedPort ps v).prev = bitmapAfter ps.prev v := by
  rw [consumedPort, polledPort_prev, takesValid_deliveredPort, deliveredPort_pkt, deliveredPort_prev]
  rfl

/-- R102: what the POLL of a packet just sent appends to `OUT`. -/
theorem polledEvents_deliveredPort_perm (emitted : Nat) (p : Port) (ps : PortState) (v : Packet) :
    (polledEvents configuration emitted p (deliveredPort ps v)).Perm (eventsAfter p ps.prev v) := by
  have hperm := polledEvents_perm configuration emitted p (deliveredPort ps v)
  rwa [takesValid_deliveredPort, deliveredPort_pkt, deliveredPort_prev] at hperm

/-! ### What packets sent and polled can change -/

/-- The state with only the words `rest` waiting, other fields in port `p`, and more events in `OUT`: nothing else
changes when packets are sent to `p` and polled. -/
def streamed (p : Port) (rest : List StimWord) (ps : PortState) (evs : List Event) (s : State) : State :=
  ((s.setPending rest).setPort p ps).setOut (s.out ++ evs)

section Streamed

variable (p : Port) (rest : List StimWord) (ps : PortState) (evs : List Event) (s : State)

@[simp] theorem streamed_port : (streamed p rest ps evs s).port p = ps := by simp [streamed]
@[simp] theorem streamed_port_other : (streamed p rest ps evs s).port (otherPort p) = s.port (otherPort p) := by
  simp [streamed]
@[simp] theorem streamed_out : (streamed p rest ps evs s).out = s.out ++ evs := rfl
@[simp] theorem streamed_fault : (streamed p rest ps evs s).fault = s.fault := by simp [streamed]
@[simp] theorem streamed_pending : (streamed p rest ps evs s).pending = rest := by simp [streamed]

theorem streamed_self : streamed p s.pending (s.port p) [] s = s := by
  rw [streamed, setPending_self, setPort_self, List.append_nil]
  rfl

/-- Two such changes of one port are one: the later fields stand, and the events follow each other. -/
theorem streamed_streamed (rest' : List StimWord) (ps' : PortState) (evs' : List Event) :
    streamed p rest' ps' evs' (streamed p rest ps evs s) = streamed p rest' ps' (evs ++ evs') s := by
  rw [streamed, streamed_out, List.append_assoc]
  simp only [streamed, setPort_setOut, setPort_setPending, setPort_setPort]
  rfl

end Streamed

/-! ### The run over one packet and its POLL -/

/-- A step that takes the word of a POLL polls its port (R108). -/
theorem step_pollWord {s : State} (hfault : s.fault = false) {p : Port} {rest : List StimWord}
    (hwords : s.pending = encode (.poll p) :: rest) :
    step s = .next (streamed p rest (polledPort configuration (s.port p))
      (polledEvents configuration s.out.length p (s.port p)) s) := by
  rw [step_stimulus _ rest _ hwords (decode_encode _)]
  refine (execPoll_next_iff p _ _).mpr ⟨hfault, ?_⟩
  rw [pollState_eq, setPending_port, setPending_out, streamed]

/-- R66, R108: the 48 words of a packet deliver it, and the POLL after them consumes it. -/
theorem runSteps_polledPacket (p : Port) (v : Packet) (rest : List StimWord) {s : State} (hfault : s.fault = false)
    (hcnt : (s.port p).cnt = 0#5) (hwords : s.pending = packetWords p v ++ encode (.poll p) :: rest) :
    ∃ evs, evs.Perm (eventsAfter p (s.port p).prev v) ∧
      runSteps 49 s = .next (streamed p rest (consumedPort (s.port p) v) evs s) := by
  have hsent : runSteps 48 s =
      .next ((s.setPending (encode (.poll p) :: rest)).setPort p (deliveredPort (s.port p) v)) :=
    packetStimuliDeliverThePacket p v _ s hfault hcnt hwords
  refine ⟨_, polledEvents_deliveredPort_perm s.out.length p _ v, ?_⟩
  rw [runSteps_add 48 1 hsent, runSteps_succ 0 (step_pollWord (by simpa using hfault) (setPort_pending ..)),
    streamed, setPort_setPending, setPort_port, setPort_setPort, setPort_out]
  rfl

/-! ### The run over a list of packets -/

/-- The bitmap a port holds after a list of packets is that of the last valid one (R26). -/
theorem foldl_consumedPort_prev (ps : PortState) (vs : List Packet) :
    (vs.foldl consumedPort ps).prev = vs.foldl bitmapAfter ps.prev :=
  (List.foldl_hom PortState.prev fun ps v => (consumedPort_prev ps v).symm).symm

theorem polledWords_cons (p : Port) (v : Packet) (vs : List Packet) (rest : List StimWord) :
    polledWords p (v :: vs) ++ rest = packetWords p v ++ encode (.poll p) :: (polledWords p vs ++ rest) := by
  simp [polledWords]

/-- R94, R111: the port has consumed each packet, and `OUT` has the events of each in turn, in some order within a
packet. -/
theorem runSteps_polledWords (p : Port) (vs : List Packet) (rest : List StimWord) {s : State}
    (hfault : s.fault = false) (hcnt : (s.port p).cnt = 0#5) (hwords : s.pending = polledWords p vs ++ rest) :
    ∃ chunks : List (List Event),
      List.Forall₂ List.Perm chunks (eventsOfPackets p (s.port p).prev vs) ∧
      runSteps (49 * vs.length) s =
        .next (streamed p rest (vs.foldl consumedPort (s.port p)) chunks.flatten s) := by
  induction vs generalizing s with
  | nil =>
    obtain rfl : s.pending = rest := hwords
    exact ⟨[], .nil, congrArg _ (streamed_self p s).symm⟩
  | cons v vs ih =>
    rw [polledWords_cons] at hwords
    obtain ⟨evs, hevs, hfirst⟩ := runSteps_polledPacket p v _ hfault hcnt hwords
    obtain ⟨chunks, hchunks, hrest⟩ :=
      ih (s := streamed p (polledWords p vs ++ rest) (consumedPort (s.port p) v) evs s)
        (by simpa using hfault) (by simp) (streamed_pending ..)
    rw [streamed_port] at hchunks hrest
    rw [consumedPort_prev] at hchunks
    refine ⟨evs :: chunks, .cons hevs hchunks, ?_⟩
    rw [List.length_cons, Nat.mul_succ, Nat.add_comm, runSteps_add 49 _ hfirst, hrest, streamed_streamed]
    rfl

/-- Settles O30: the whole state after the run is `runSteps_polledWords`, an induction over the packets. -/
theorem packetStreamRefinesBitmapDiff : Obligations.PacketStreamRefinesBitmapDiff := by
  intro p vs rest s hfault hcnt hwords
  obtain ⟨chunks, hchunks, hrun⟩ := runSteps_polledWords p vs rest hfault hcnt hwords
  exact ⟨_, chunks, hrun, hchunks, streamed_out .., by rw [streamed_port, foldl_consumedPort_prev],
    streamed_port_other .., streamed_pending ..⟩

/-! ### Packets that fail the check (R95) -/

/-- R95: a POLL of a packet that fails the check appends nothing and leaves every bitmap. -/
theorem out_prev_of_poll_invalid {p : Port} {s t : State} (h : exec (.poll p) s = .next t)
    (hinvalid : validPacket configuration (s.port p).pkt = false) :
    t.out = s.out ∧ ∀ q, (t.port q).prev = (s.port q).prev := by
  obtain ⟨hport, hout, -⟩ := exec_next_fields h
  have htakes : takesValid configuration (s.port p) = false := by rw [takesValid, hinvalid, Bool.and_false]
  refine ⟨by simp [hout, emittedEvents_poll, polledEvents, htakes], fun q => ?_⟩
  rw [hport]
  obtain rfl | hne := eq_or_ne p q
  · simp [polledPort_prev, htakes]
  · rw [portAfter_poll_of_ne _ hne]

theorem bitmapAfter_of_invalid {v : Packet} (hv : validPacket configuration v = false) (prev : Bitmap) :
    bitmapAfter prev v = prev := by
  simp [bitmapAfter, hv]

theorem eventsAfter_of_invalid {v : Packet} (hv : validPacket configuration v = false) (p : Port) (prev : Bitmap) :
    eventsAfter p prev v = [] := by
  simp [eventsAfter, hv]

section Invalid

variable {vs : List Packet} (hinvalid : ∀ v ∈ vs, validPacket configuration v = false)
include hinvalid

/-- Packets that fail the check leave the bitmap held. -/
theorem foldl_bitmapAfter_of_invalid (prev : Bitmap) : vs.foldl bitmapAfter prev = prev := by
  induction vs with
  | nil => rfl
  | cons v vs ih =>
    obtain ⟨hv, hvs⟩ := List.forall_mem_cons.mp hinvalid
    rw [List.foldl_cons, bitmapAfter_of_invalid hv, ih hvs]

/-- Packets that fail the check call for no event. -/
theorem flatten_eventsOfPackets_of_invalid (p : Port) (prev : Bitmap) :
    (eventsOfPackets p prev vs).flatten = [] := by
  induction vs generalizing prev with
  | nil => rfl
  | cons v vs ih =>
    obtain ⟨hv, hvs⟩ := List.forall_mem_cons.mp hinvalid
    rw [eventsOfPackets, List.flatten_cons, eventsAfter_of_invalid hv, ih hvs, List.nil_append]

end Invalid

/-- Settles O27: one POLL is `out_prev_of_poll_invalid`; a list is the case of `packetStreamRefinesBitmapDiff`
in which no packet calls for an event. -/
theorem invalidPacketsEmitNothing : Obligations.InvalidPacketsEmitNothing := by
  refine ⟨fun p s hfault hinvalid => ?_, fun p vs rest s hfault hcnt hinvalid hwords => ?_⟩
  · obtain ⟨t, h⟩ := exec_answers (.poll p) hfault
    exact ⟨t, h, out_prev_of_poll_invalid h hinvalid⟩
  · obtain ⟨t, chunks, hrun, hchunks, hout, hprev, hother, hpending⟩ :=
      packetStreamRefinesBitmapDiff p vs rest s hfault hcnt hwords
    have hnone : chunks.flatten = [] := by
      have hperm := List.Perm.flatten_congr hchunks
      rwa [flatten_eventsOfPackets_of_invalid hinvalid, List.perm_nil] at hperm
    refine ⟨t, hrun, hpending, by rw [hout, hnone, List.append_nil], fun q => ?_⟩
    obtain rfl | rfl : q = p ∨ q = otherPort p := by cases p <;> cases q <;> decide
    · rw [hprev, foldl_bitmapAfter_of_invalid hinvalid]
    · rw [hother]

end Sys2Proof.Proofs
end

section
/-! PROOFS. The Keymap Resolver's pure functions, part one (42_keymap_resolver.md R100, R103): change detection, lane
by lane, and the orders of one packet's events. -/

namespace Sys2Proof.Proofs

open Sys2Proof.Machine Sys2Proof.Laws

/-! ### Change detection (R100) -/

section Lanes

variable (new prev : Bitmap) (i : Nat)

theorem changedButtons_getLsbD : (changedButtons new prev).getLsbD i = (new.getLsbD i != prev.getLsbD i) :=
  BitVec.getLsbD_xor

theorem pressedButtons_getLsbD : (pressedButtons new prev).getLsbD i = (new.getLsbD i && !prev.getLsbD i) := by
  rw [pressedButtons, BitVec.getLsbD_and, changedButtons_getLsbD]
  cases new.getLsbD i <;> cases prev.getLsbD i <;> rfl

theorem releasedButtons_getLsbD : (releasedButtons new prev).getLsbD i = (!new.getLsbD i && prev.getLsbD i) := by
  rw [releasedButtons, BitVec.getLsbD_and, changedButtons_getLsbD]
  cases new.getLsbD i <;> cases prev.getLsbD i <;> rfl

/-- No button is pressed and released at once. -/
theorem pressed_and_released : pressedButtons new prev &&& releasedButtons new prev = 0#14 := by
  refine BitVec.eq_of_getLsbD_eq fun i _ => ?_
  rw [BitVec.getLsbD_and, pressedButtons_getLsbD, releasedButtons_getLsbD, BitVec.getLsbD_zero]
  cases new.getLsbD i <;> cases prev.getLsbD i <;> rfl

/-- A button has changed when it is pressed or released. -/
theorem pressed_or_released : pressedButtons new prev ||| releasedButtons new prev = changedButtons new prev := by
  refine BitVec.eq_of_getLsbD_eq fun i _ => ?_
  rw [BitVec.getLsbD_or, pressedButtons_getLsbD, releasedButtons_getLsbD, changedButtons_getLsbD]
  cases new.getLsbD i <;> cases prev.getLsbD i <;> rfl

end Lanes

@[simp] theorem changedButtons_self (b : Bitmap) : changedButtons b b = 0#14 := BitVec.xor_self

@[simp] theorem changedButtons_zero (b : Bitmap) : changedButtons b 0#14 = b := BitVec.xor_zero

@[simp] theorem zero_changedButtons (b : Bitmap) : changedButtons 0#14 b = b := BitVec.zero_xor

/-- Settles O20: the lanes of the three results, and what follows from them lane by lane. -/
theorem changeDetectionLanes : Obligations.ChangeDetectionLanes := by
  refine ⟨fun new prev => ⟨fun i _ => ⟨changedButtons_getLsbD new prev i, pressedButtons_getLsbD new prev i,
    releasedButtons_getLsbD new prev i⟩, pressed_and_released new prev, pressed_or_released new prev⟩,
    fun b => ⟨changedButtons_self b, ?_, ?_, ?_⟩, by decide⟩
  · rw [pressedButtons, changedButtons_zero, BitVec.and_self]
  · rw [releasedButtons, BitVec.and_zero]
  · rw [releasedButtons, zero_changedButtons, BitVec.and_self]

/-! ### The orders of one packet's events (R103) -/

/-- An element put at the end of the first part of a list stands between the two parts. -/
theorem insertAt_length_append {α : Type} (a : α) (l r : List α) : insertAt a (l ++ r) l.length = l ++ a :: r := by
  induction l with
  | nil => cases r <;> rfl
  | cons b l ih => exact congrArg (b :: ·) ih

/-- The order of a list depends on the positions chosen below its length alone. -/
theorem permute_congr {α : Type} {pick pick' : Nat → Nat} {l : List α} (h : ∀ k < l.length, pick k = pick' k) :
    permute pick l = permute pick' l := by
  induction l with
  | nil => rfl
  | cons a rest ih =>
    rw [permute, permute, h _ (Nat.lt_succ_self _), ih fun k hk => h k (Nat.lt_succ_of_lt hk)]

/-- R103: every permutation of a list is one of its orders. By induction on the list: the head goes where it stands in
the permutation, and what stands around it there is a permutation of the tail. -/
theorem exists_permute_eq_of_perm {α : Type} {l l' : List α} (h : l'.Perm l) : ∃ pick, permute pick l = l' := by
  induction l generalizing l' with
  | nil => exact ⟨id, h.eq_nil.symm⟩
  | cons a rest ih =>
    obtain ⟨before, after, rfl⟩ := List.append_of_mem (h.mem_iff.mpr List.mem_cons_self)
    obtain ⟨pick, hpick⟩ := ih (List.perm_middle.symm.trans h).cons_inv
    have hrest : permute (Function.update pick rest.length before.length) rest = before ++ after := by
      rw [← hpick]
      exact permute_congr fun k hk => Function.update_of_ne hk.ne _ _
    exact ⟨Function.update pick rest.length before.length,
      by rw [permute, hrest, Function.update_self, insertAt_length_append]⟩

/-- Settles O24: an order of a list permutes it, and every permutation is one. -/
theorem eventOrderAdmitsEveryPermutation : Obligations.EventOrderAdmitsEveryPermutation := by
  refine ⟨fun cfg n p new prev => permute_perm _ _, fun cfg n p new prev l hperm => ?_⟩
  obtain ⟨pick, hpick⟩ := exists_permute_eq_of_perm hperm
  exact ⟨fun _ _ _ _ => pick, hpick⟩

end Sys2Proof.Proofs
end

section
/-! PROOFS. The Keymap Resolver's pure functions, part two (42_keymap_resolver.md R101, R102, R110): a keymap that
passes the check resolves every button to a symbol, and the events of two bitmaps are then one for each bit that
differs. -/

namespace Sys2Proof.Proofs

open Sys2Proof.Machine Sys2Proof.Laws Sys2Proof.Claims

/-! ### The keymap check (R110) -/

theorem entriesFor_eq_one_iff (km : List KeymapEntry) (b : Button) :
    entriesFor km b = 1 ↔ ∃ e, km.filter (fun x => x.button == b.index) = [e] := by
  rw [entriesFor, List.countP_eq_length_filter, List.length_eq_one_iff]

/-- The identities of buttons are the numbers below 14 (R55). -/
theorem lt_fourteen_iff (n : Nat) : n < 14 ↔ ∃ b : Button, n = b.index := by
  refine ⟨fun hn => ?_, fun ⟨b, hb⟩ => hb ▸ button_index_lt b⟩
  obtain ⟨b, hb⟩ := exists_button_index hn
  exact ⟨b, hb.symm⟩

theorem valueOk_iff (v : KeymapValue) : valueOk v = true ↔ ∃ sym, v = .symbol sym := by
  cases v <;> simp [valueOk]

theorem keymapOk_iff (km : List KeymapEntry) : keymapOk km = true ↔ KeymapComplete km := by
  simp only [keymapOk, KeymapComplete, Bool.and_eq_true, and_assoc, List.all_eq_true, decide_eq_true_eq, beq_iff_eq,
    button_mem_all, forall_const, entriesFor_eq_one_iff, lt_fourteen_iff, valueOk_iff]

theorem configOk_iff (cfg : Config) :
    configOk cfg = true ↔ KeymapComplete cfg.keymap1 ∧ KeymapComplete cfg.keymap2 := by
  rw [configOk, Bool.and_eq_true, keymapOk_iff, keymapOk_iff]

/-- Settles O37: `configOk_iff`, the fault field of the reset states, and `step_fault`. -/
theorem keymapCheckTestsBothKeymaps : Obligations.KeymapCheckTestsBothKeymaps := by
  refine ⟨configOk_iff, rfl, fun cfg s t h => ?_, fun s => step_fault⟩
  obtain ⟨-, -, rfl⟩ := (running_next_iff cfg s (resetState cfg s) t).mp h
  rfl

/-! ### Resolution (R101) -/

/-- The check passes for the keymap of each port. -/
theorem keymapComplete_keymapFor {cfg : Config} (hcfg : configOk cfg = true) (p : Port) :
    KeymapComplete (keymapFor cfg p) := by
  obtain ⟨h1, h2⟩ := (configOk_iff cfg).mp hcfg
  cases p with
  | js1 => exact h1
  | js2 => exact h2

/-- R101: in a keymap that passes the check, a button resolves to the symbol of its own entry. -/
theorem exists_resolve_eq_some {cfg : Config} (hcfg : configOk cfg = true) (p : Port) (b : Button) :
    ∃ sym, resolve cfg p b = some sym ∧ { button := b.index, value := .symbol sym } ∈ keymapFor cfg p := by
  obtain ⟨hone, -, hsymbol⟩ := keymapComplete_keymapFor hcfg p
  obtain ⟨⟨i, v⟩, hfilter⟩ := hone b
  obtain ⟨hmem, hbutton⟩ := List.mem_filter.mp (hfilter ▸ List.mem_singleton_self _)
  obtain rfl : i = b.index := eq_of_beq hbutton
  obtain ⟨sym, rfl⟩ : ∃ sym, v = .symbol sym := hsymbol _ hmem
  refine ⟨sym, ?_, hmem⟩
  rw [resolve, ← List.head?_filter, hfilter]
  rfl

/-- R101 as one map per port: in a keymap that passes the check, every button has a symbol. -/
theorem exists_symbols {cfg : Config} (hcfg : configOk cfg = true) (p : Port) :
    ∃ sym : Button → Symbol, ∀ b, resolve cfg p b = some (sym b) :=
  Classical.skolem.mp fun b => (exists_resolve_eq_some hcfg p b).imp fun _ => And.left

/-- The machine's keymaps as total maps (R106). -/
def portSymbol : Port → Button → Symbol
  | .js1 => keymap1Symbol
  | .js2 => keymap2Symbol

/-- The machine resolves a button to the symbol its port's map has for it. -/
theorem resolve_configuration (p : Port) (b : Button) : resolve configuration p b = some (portSymbol p b) := by
  have hkeymap : keymapFor configuration p = keymapOf (portSymbol p) := by cases p <;> rfl
  rw [resolve, hkeymap, find_keymapOf]
  rfl

/-- Settles O21: `exists_resolve_eq_some` for each port; `resolve` reads the port's own keymap only. -/
theorem resolveUsesTheOwnKeymap : Obligations.ResolveUsesTheOwnKeymap := by
  refine ⟨fun cfg b hcfg => ?_, fun cfg km b => ⟨rfl, rfl⟩, resolve_configuration .js2 .left⟩
  obtain ⟨sym1, hresolve1, hmem1⟩ := exists_resolve_eq_some hcfg .js1 b
  obtain ⟨sym2, hresolve2, hmem2⟩ := exists_resolve_eq_some hcfg .js2 b
  exact ⟨sym1, sym2, hresolve1, hmem1, hresolve2, hmem2⟩

/-- Settles O22: `resolve_configuration` at the three entries. -/
theorem scenarioKeymapEntries : Obligations.ScenarioKeymapEntries :=
  ⟨resolve_configuration .js1 .up, resolve_configuration .js2 .left, resolve_configuration .js2 .red⟩

/-! ### The events of two bitmaps (R102, R104) -/

/-- R102: one event for each changed button, with its symbol and the direction of its new bit. -/
theorem events_eq {cfg : Config} {p : Port} {sym : Button → Symbol} (hsym : ∀ b, resolve cfg p b = some (sym b))
    (new prev : Bitmap) :
    events cfg p new prev =
      (Button.all.filter fun b => (changedButtons new prev).getLsbD b.index).map
        fun b => { sym := sym b, dir := directionOf new b } := by
  rw [← List.filterMap_eq_map, List.filterMap_filter, events]
  refine congrArg (List.filterMap · _) (funext fun b => ?_)
  rw [buttonEvent, hsym]
  rfl

/-- R102: the bits of a bitmap are counted button by button. -/
theorem length_filter_buttons (B : Bitmap) :
    (Button.all.filter fun b => B.getLsbD b.index).length = popcount B := by
  rw [popcount, ← map_index_buttons, List.countP_map, ← List.countP_eq_length_filter]
  rfl

/-- R104: an unchanged bitmap gives no event. -/
@[simp] theorem events_self (cfg : Config) (p : Port) (b : Bitmap) : events cfg p b b = [] := by
  simp [events, buttonEvent]

/-- Settles O23: `events_eq` for the port's symbols, and the count of the bits that differ. -/
theorem eventsAreTheSymmetricDifference : Obligations.EventsAreTheSymmetricDifference := by
  refine ⟨fun cfg p hcfg => ?_, ?_⟩
  · obtain ⟨sym, hsym⟩ := exists_symbols hcfg p
    refine ⟨sym, hsym, fun new prev => ⟨events_eq hsym new prev, ?_⟩⟩
    rw [events_eq hsym, List.length_map]
    exact length_filter_buttons _
  · rw [events_eq (resolve_configuration .js1)]
    rfl

end Sys2Proof.Proofs
end

section
/-! PROOFS. The stimulus POLL (42_keymap_resolver.md R104, R108, R109): its four cases, and the two in which the events
of the packet are known from its bitmap. -/

namespace Sys2Proof.Proofs

open Sys2Proof.Machine Sys2Proof.Laws

/-! ### The four cases (R108) -/

section Taken

variable {p : Port} {s : State} (hfault : s.fault = false) (hready : (s.port p).ready = true)
include hfault hready

/-- R108: a POLL that takes a packet that fails the check only lowers the flag. -/
theorem exec_poll_of_invalid (hinvalid : validPacket configuration (s.port p).pkt = false) :
    exec (.poll p) s = .next (s.setPort p { s.port p with ready := false }) := by
  have hpoll : pollState configuration p s = discardPacket p s := by
    simpa [hready, hinvalid] using pollState_cases configuration p s
  exact (execPoll_next_iff ..).mpr ⟨hfault, hpoll⟩

/-- R108: a POLL that takes a valid packet holds its bitmap and appends its events in some order. -/
theorem exec_poll_of_valid (hvalid : validPacket configuration (s.port p).pkt = true) :
    ∃ evs : List Event,
      evs.Perm (events configuration p (mapPacket configuration (s.port p).pkt) (s.port p).prev) ∧
      exec (.poll p) s = .next
        ((s.setPort p
            { s.port p with ready := false, prev := mapPacket configuration (s.port p).pkt }).setOut
          (s.out ++ evs)) := by
  have hpoll : pollState configuration p s =
      acceptPacket configuration p (mapPacket configuration (s.port p).pkt) s := by
    simpa [hready, hvalid] using pollState_cases configuration p s
  exact ⟨_, permute_perm _ _, (execPoll_next_iff ..).mpr ⟨hfault, hpoll⟩⟩

end Taken

/-- Settles O25: the guard stops a faulty state, and the other cases are those of `pollState_cases`. -/
theorem pollFollowsItsRule : Obligations.PollFollowsItsRule :=
  fun _ _ =>
    ⟨fun hfault => running_fault configuration_wellFormed hfault _,
      fun hfault hready => exec_poll_of_nothingToTake ⟨hfault, hready⟩,
      exec_poll_of_invalid, exec_poll_of_valid⟩

/-! ### An unchanged bitmap (R104) -/

/-- Settles O28: two equal bitmaps have no events, so a POLL that finds them appends nothing. -/
theorem unchangedBitmapEmitsNothing : Obligations.UnchangedBitmapEmitsNothing := by
  refine ⟨events_self, fun p s hfault hready hvalid hsame => ?_⟩
  obtain ⟨evs, hperm, hexec⟩ := exec_poll_of_valid hfault hready hvalid
  rw [hsame, events_self, List.perm_nil] at hperm
  rw [hexec, hperm, hsame, List.append_nil, setPort_setOut]
  rfl

/-! ### The first packet after reset (R109) -/

/-- R109: against the empty bitmap, the events are one press for each button held. -/
theorem events_zero {cfg : Config} {p : Port} {sym : Button → Symbol} (hsym : ∀ b, resolve cfg p b = some (sym b))
    (new : Bitmap) :
    events cfg p new 0#14 =
      (Button.all.filter fun b => new.getLsbD b.index).map fun b => { sym := sym b, dir := .pressed } := by
  rw [events_eq hsym, changedButtons_zero]
  refine List.map_congr_left fun b hb => ?_
  rw [directionOf, if_pos (List.mem_filter.mp hb).2]

/-- Settles O29: RESET empties the bitmap, and a POLL that finds it empty appends the events of `events_zero`. -/
theorem firstPacketPressesHeldButtons : Obligations.FirstPacketPressesHeldButtons := by
  refine ⟨fun p s t h => ?_, fun p => by cases p <;> rfl, fun p s hfault hready hprev hvalid => ?_⟩
  · obtain ⟨hport, -⟩ := exec_next_fields h
    rw [hport]
    rfl
  · obtain ⟨evs, hperm, hexec⟩ := exec_poll_of_valid hfault hready hvalid
    rw [hprev] at hperm
    refine ⟨_, evs, _, hexec, rfl, resolve_configuration p, ?_, fun hempty => ?_⟩
    · rwa [events_zero (resolve_configuration p)] at hperm
    · rw [hempty, events_self, List.perm_nil] at hperm
      rw [hperm, setOut_out, List.append_nil]

end Sys2Proof.Proofs
end

section
/-! PROOFS. The errors (60_exceptions.md R120 to R123, R127) and the waiting step (R133): which stimulus meets which
error, what the two that are no faults do, and that `FAULT = 1` is the only stop. -/

namespace Sys2Proof.Proofs

open Sys2Proof.Machine Sys2Proof.Laws Sys2Proof.Claims

/-! ### Waiting (R133, R142) -/

/-- Settles O42. -/
theorem waitingHoldsTheState : Obligations.WaitingHoldsTheState := fun _ => step_nil

/-! ### The stop at `FAULT = 1` (R123) -/

/-- R123: every stimulus, RESET included, stops at the guard. -/
theorem exec_fault (i : Instr) {s : State} (hfault : s.fault = true) : exec i s = .fault .configError := by
  cases i with
  | sig p c d => exact running_fault configuration_wellFormed hfault (sigState .msbFirst configuration p c d s)
  | poll p => exact running_fault configuration_wellFormed hfault (pollState configuration p s)
  | reset => exact running_fault configuration_wellFormed hfault (resetState configuration s)

/-- A stimulus that answers a fault found the mark set, since without it every stimulus answers a next state. -/
theorem fault_true_of_exec_fault {i : Instr} {s : State} {r : Fault} (h : exec i s = .fault r) : s.fault = true := by
  refine Bool.of_not_eq_false fun hfault => ?_
  obtain ⟨t, ht⟩ := exec_answers i hfault
  rw [ht] at h
  contradiction

/-- A step that answers a fault found the mark set, since without it every step answers a next state. -/
theorem fault_true_of_step_fault {s : State} {r : Fault} (h : step s = .fault r) : s.fault = true := by
  refine Bool.of_not_eq_false fun hfault => ?_
  obtain ⟨t, ht⟩ := step_answers hfault
  rw [ht] at h
  contradiction

/-- Settles O39: the mark stops every stimulus and every step, and nothing else does. -/
theorem faultStatesHaveNoStep : Obligations.FaultStatesHaveNoStep :=
  ⟨fun _ hfault => ⟨step_fault hfault, fun i => exec_fault i hfault⟩,
    fun _ _ => fault_true_of_step_fault, fun _ _ _ => fault_true_of_exec_fault⟩

/-! ### A keymap that fails the check (R122) -/

@[simp] theorem resetState_port (cfg : Config) (s : State) (p : Port) :
    (resetState cfg s).port p = PortState.reset := by
  cases p <;> rfl

@[simp] theorem resetState_fault (cfg : Config) (s : State) : (resetState cfg s).fault = !configOk cfg := rfl

@[simp] theorem resetState_out (cfg : Config) (s : State) : (resetState cfg s).out = s.out := rfl

/-- Settles O38: RESET sets the mark from the failed check, and the mark stops whatever comes next. -/
theorem configErrorIsFatal : Obligations.ConfigErrorIsFatal := by
  intro cfg s hwf hcheck hfault
  have hmark : (resetState cfg s).fault = true := by rw [resetState_fault, hcheck, Bool.not_false]
  exact ⟨resetState cfg s, running_ok hwf hfault _, hmark, resetState_out cfg s, resetState_port cfg s,
    fun _ _ _ => ⟨running_fault hwf hmark _, running_fault hwf hmark _, running_fault hwf hmark _,
      step_fault hmark⟩⟩

/-! ### Which stimulus meets which error (R120 to R122) -/

section ErrorMet

variable (cfg : Config) (p : Port) (s : State) (e : ErrorCause)

/-- R121. -/
theorem errorMet_sig_iff (c d : Bool) : errorMet cfg (.sig p c d) s = some e ↔
    e = .cursorOverflow ∧ active cfg.edge (s.port p).lastClk c = true ∧ 24 ≤ (s.port p).cnt.toNat := by
  rw [and_comm, eq_comm (a := e)]
  simp [errorMet]

/-- R120. -/
theorem errorMet_poll_iff : errorMet cfg (.poll p) s = some e ↔
    e = .framingMismatch ∧ (s.port p).ready = true ∧ validPacket cfg (s.port p).pkt = false := by
  rw [and_comm, eq_comm (a := e)]
  simp [errorMet]

/-- R122. -/
theorem errorMet_reset_iff : errorMet cfg .reset s = some e ↔ e = .configError ∧ configOk cfg = false := by
  rw [and_comm, eq_comm (a := e)]
  simp [errorMet]

end ErrorMet

/-- R127: a legal cursor is 23 at most, so no stimulus finds it past the packet. -/
theorem errorMet_ne_cursorOverflow {s : State} (hs : s.Legal) (cfg : Config) (i : Instr) :
    errorMet cfg i s ≠ some .cursorOverflow := by
  intro h
  cases i with
  | sig p c d =>
    obtain ⟨-, -, hover⟩ := (errorMet_sig_iff ..).mp h
    obtain ⟨hlegal, -⟩ := (legal_iff s).mp hs
    obtain ⟨hcnt, -⟩ := hlegal p
    omega
  | poll p => exact nomatch ((errorMet_poll_iff ..).mp h).1
  | reset => exact nomatch ((errorMet_reset_iff ..).mp h).1

/-- Settles O40: the causes are those of the three `errorMet` lemmas, a POLL that meets code 1 is
`exec_poll_of_invalid`, and a SIG that meets code 2 is `sigWith_of_active_of_ge`. -/
theorem errorsHaveTheirEffects : Obligations.ErrorsHaveTheirEffects := by
  refine ⟨rfl, rfl, rfl, fun cfg i s e h => ?_, fun p s hfault h => ?_, fun p c d s hfault h => ?_,
    fun i s hs => errorMet_ne_cursorOverflow hs configuration i⟩
  · cases i with
    | sig p c d => exact ((errorMet_sig_iff ..).mp h).1
    | poll p => exact ((errorMet_poll_iff ..).mp h).1
    | reset => exact ((errorMet_reset_iff ..).mp h).1
  · obtain ⟨-, hready, hinvalid⟩ := (errorMet_poll_iff ..).mp h
    exact exec_poll_of_invalid hfault hready hinvalid
  · obtain ⟨-, hactive, hover⟩ := (errorMet_sig_iff ..).mp h
    exact sigWith_of_active_of_ge d configuration_wellFormed hfault hactive hover

end Sys2Proof.Proofs
end

section
/-! PROOFS. RESET and power-on (70_reset_and_hazards.md R140, R141) and the two hazards of the consumer: a packet
overwritten before its POLL (R145) and a button held over a RESET (R147). -/

namespace Sys2Proof.Proofs

open Sys2Proof.Machine Sys2Proof.Laws Sys2Proof.Claims

/-! ### RESET (R140) -/

/-- The machine's own keymaps pass the check, so its RESET leaves the mark at 0. -/
theorem resetState_configuration_fault (s : State) : (resetState configuration s).fault = false := by
  rw [resetState_fault, configuration_ok, Bool.not_true]

/-- The machine's RESET answers the reset state. -/
theorem exec_reset {s : State} (hfault : s.fault = false) :
    exec .reset s = .next (resetState configuration s) :=
  (execReset_next_iff s _).mpr ⟨hfault, rfl⟩

/-- Settles O33: the guard stops a faulty state, and any other takes the fields of `resetState`. -/
theorem resetFollowsItsRule : Obligations.ResetFollowsItsRule := by
  refine ⟨fun cfg s hwf => ?_, fun s hfault => ?_⟩
  · split
    next hfault => exact running_fault hwf hfault _
    next hfault => exact running_ok hwf (Bool.eq_false_iff.mpr hfault) _
  · rw [exec_reset hfault, ← resetState_configuration_fault s]
    rfl

/-! ### Power-on (R141) -/

/-- Settles O34: RESET writes every field of the power-on state but the three that the hypotheses give and the words
issued. -/
theorem powerOnIsReset : Obligations.PowerOnIsReset := by
  intro s hfault hrefused hout
  rw [exec_reset hfault, resetState, hrefused, hout]
  rfl

/-! ### A button held over a RESET (R147) -/

/-- RESET empties the bitmap of every port and leaves `OUT`. -/
theorem prev_out_of_exec_reset {s t : State} (h : exec .reset s = .next t) :
    (∀ p, (t.port p).prev = 0#14) ∧ t.out = s.out := by
  obtain ⟨-, rfl⟩ := (execReset_next_iff s t).mp h
  exact ⟨fun p => by rw [resetState_port]; rfl, resetState_out ..⟩

/-- Settles O35: the POLL finds the bitmap RESET left empty, so its events are the presses of `events_zero`, that of
the held button among them. -/
theorem heldButtonPressesAgainAfterReset : Obligations.HeldButtonPressesAgainAfterReset := by
  intro p b s t u hreset hfault hprev hready hvalid hheld
  obtain ⟨hempty, hout⟩ := prev_out_of_exec_reset hreset
  obtain ⟨evs, hperm, hexec⟩ := exec_poll_of_valid hfault hready hvalid
  rw [hprev, hempty, events_zero (resolve_configuration p)] at hperm
  refine ⟨hout, _, evs, portSymbol p b, hexec, rfl, resolve_configuration p b, ?_, fun e he => ?_⟩
  · exact hperm.mem_iff.mpr (List.mem_map.mpr ⟨b, List.mem_filter.mpr ⟨button_mem_all b, hheld⟩, rfl⟩)
  · obtain ⟨_, -, rfl⟩ := List.mem_map.mp (hperm.mem_iff.mp he)
    rfl

/-! ### A packet overwritten before its POLL (R145) -/

/-- A second delivery leaves nothing of the first (R75). -/
@[simp] theorem deliveredPort_deliveredPort (ps : PortState) (v v' : Packet) :
    deliveredPort (deliveredPort ps v) v' = deliveredPort ps v' := rfl

section Overwritten

variable (p : Port) (v v' : Packet) (rest : List StimWord) {s : State} (hfault : s.fault = false)
  (hcnt : (s.port p).cnt = 0#5)
include hfault hcnt

/-- R66: the words of a packet, put in front of others, deliver it. -/
theorem runSteps_packetWords :
    runSteps 48 (s.setPending (packetWords p v ++ rest)) =
      .next ((s.setPending rest).setPort p (deliveredPort (s.port p) v)) := by
  have hsent := packetStimuliDeliverThePacket p v rest (s.setPending (packetWords p v ++ rest)) hfault
    (by rwa [setPending_port]) rfl
  rwa [setPending_setPending, setPending_port] at hsent

/-- R75: a run over two packets with no POLL between goes on like the run over the second alone. -/
theorem runSteps_overwrittenPacket (n : Nat) :
    runSteps (48 + (48 + n)) (s.setPending (packetWords p v ++ (packetWords p v' ++ rest))) =
      runSteps (48 + n) (s.setPending (packetWords p v' ++ rest)) := by
  have hsecond := runSteps_packetWords p v' rest (s := s.setPort p (deliveredPort (s.port p) v))
    (by rwa [setPort_fault]) (by rw [setPort_port]; rfl)
  rw [setPort_port, deliveredPort_deliveredPort, setPort_setPending, setPort_setPending, setPort_setPort] at hsecond
  rw [runSteps_add 48 _ (runSteps_packetWords p v _ hfault hcnt), runSteps_add 48 n hsecond,
    runSteps_add 48 n (runSteps_packetWords p v' rest hfault hcnt)]

end Overwritten

/-- Settles O31: `runSteps_overwrittenPacket` with the POLL as the one step more, which answers by
`runSteps_polledPacket`. -/
theorem overwrittenPacketLeavesNoTrace : Obligations.OverwrittenPacketLeavesNoTrace := by
  intro p v v' rest s hfault hcnt
  obtain ⟨_, -, hpolled⟩ := runSteps_polledPacket p v' rest
    (s := s.setPending (packetWords p v' ++ encode (.poll p) :: rest)) hfault (by rwa [setPending_port]) rfl
  refine ⟨_, ?_, hpolled⟩
  rw [List.append_assoc]
  exact (runSteps_overwrittenPacket p v v' _ hfault hcnt 1).trans hpolled

end Sys2Proof.Proofs
end
